-- ==== Sys2Proof/Word.lean ====
section
/-! DEFINITION. The word types of the potiscan block and their plainest views. -/

namespace Sys2Proof

/-- A byte: a bus byte, an output byte, one cell of the trim store. -/
abbrev Byte := BitVec 8

/-- A 16-bit word: the counter, a raw sample, a trim field. -/
abbrev Word := BitVec 16

/-- A channel index, 0 = X1, 1 = Y1, 2 = X2, 3 = Y2 (R7, R24); also a button index. -/
abbrev Chan := Fin 4

/-- A joystick index, 0 = joystick 1, 1 = joystick 2 (R99). -/
abbrev Joystick := Fin 2

/-- `w[7:0]`. -/
def Word.lo (w : Word) : Byte := w.extractLsb' 0 8

/-- `w[15:8]`. -/
def Word.hi (w : Word) : Byte := w.extractLsb' 8 8

/-- The 16-bit value of two bytes, little-endian (R100). -/
def Word.ofBytes (lo hi : Byte) : Word := hi ++ lo

end Sys2Proof
end

