-- ==== Sys2Proof/Syntax.lean ====
section
/-! DEFINITION. The byte encodings the block decodes (R1, R92): one constructor per row of the opcode table. -/

namespace Sys2Proof

/-- A decoded address byte or command byte. -/
inductive Instr where
  /-- `ADDR`: the address byte `{a, r}`, `r` = 1 for a read (R90, R182). -/
  | addr (a : BitVec 7) (r : Bool)
  /-- `RD_ALL`, command 0 (R217). -/
  | rdAll
  /-- `RD_X1`, command 1 (R218). -/
  | rdX1
  /-- `RD_Y1`, command 2 (R219). -/
  | rdY1
  /-- `RD_X2`, command 3 (R220). -/
  | rdX2
  /-- `RD_Y2`, command 4 (R221). -/
  | rdY2
  /-- `RD_BTN`, command 5 (R222). -/
  | rdBtn
  /-- `CAL_A1`, command 32 (R223). -/
  | calA1
  /-- `CAL_B1`, command 33 (R224). -/
  | calB1
  /-- `CAL_F1`, command 34 (R225). -/
  | calF1
  /-- `CAL_A2`, command 35 (R226). -/
  | calA2
  /-- `CAL_B2`, command 36 (R227). -/
  | calB2
  /-- `CAL_F2`, command 37 (R228). -/
  | calF2
  /-- `RD_RAW`, command 128 (R229). -/
  | rdRaw
  /-- `RD_TRIM`, command 129 (R230). -/
  | rdTrim
  /-- `OPAQUE`, any other command value `c` (R231). -/
  | opaqueMode (c : Byte)
deriving DecidableEq, Repr

end Sys2Proof
end

