-- ==== Sys2Proof/WellFormed.lean ====
section
/-! DEFINITION. Which instruction terms stand for a byte: the check on the value an `OPAQUE` command carries. -/

namespace Sys2Proof

/-- The command values with a meaning of their own: 0..5, 32..37, 128, 129 (R92, R231). -/
def namedCommand (c : Byte) : Bool :=
  decide (c.toNat ≤ 5) || (decide (32 ≤ c.toNat) && decide (c.toNat ≤ 37)) ||
  c == 128#8 || c == 129#8

/-- `OPAQUE` carries a value that names no other command (R231); every other term is well formed. -/
def Instr.wellFormed : Instr → Bool
  | .opaqueMode c => !namedCommand c
  | .addr _ _ => true
  | .rdAll => true
  | .rdX1 => true
  | .rdY1 => true
  | .rdX2 => true
  | .rdY2 => true
  | .rdBtn => true
  | .calA1 => true
  | .calB1 => true
  | .calF1 => true
  | .calA2 => true
  | .calB2 => true
  | .calF2 => true
  | .rdRaw => true
  | .rdTrim => true

end Sys2Proof
end

