-- ==== Sys2Proof/Decode.lean ====
section
/-! DEFINITION. Decoding a bus byte in its context, and the encoder. The byte's place in the access decides which table it is read by (R90, R92). -/

namespace Sys2Proof

/-- Where a byte stands in a bus access: first byte after a start condition, or the data byte of a write access. -/
inductive ByteContext where
  | address
  | command
deriving DecidableEq, Repr

/-- Why a byte sequence does not decode. No byte value is illegal (R101, R102), so only absence remains. -/
inductive DecodeError where
  /-- no byte is there to decode. -/
  | noByte
deriving DecidableEq, Repr

/-- The address byte `{ADDR[6:0], RW}` (R90). -/
def decodeAddress (b : Byte) : Instr := .addr (b.extractLsb' 1 7) (b.getLsbD 0)

/-- The command byte by the table of R92; every value not listed is `OPAQUE` (R101, R231). -/
def decodeCommand (b : Byte) : Instr :=
  if b = 0x00#8 then .rdAll
  else if b = 0x01#8 then .rdX1
  else if b = 0x02#8 then .rdY1
  else if b = 0x03#8 then .rdX2
  else if b = 0x04#8 then .rdY2
  else if b = 0x05#8 then .rdBtn
  else if b = 0x20#8 then .calA1
  else if b = 0x21#8 then .calB1
  else if b = 0x22#8 then .calF1
  else if b = 0x23#8 then .calA2
  else if b = 0x24#8 then .calB2
  else if b = 0x25#8 then .calF2
  else if b = 0x80#8 then .rdRaw
  else if b = 0x81#8 then .rdTrim
  else .opaqueMode b

/-- The instruction a byte stands for in its context. -/
def decodeByte : ByteContext → Byte → Instr
  | .address, b => decodeAddress b
  | .command, b => decodeCommand b

/-- Decode the first byte of a sequence; all encodings are one byte (R103). -/
def decode (ctx : ByteContext) : List Byte → Except DecodeError (Instr × List Byte)
  | [] => .error .noByte
  | b :: rest => .ok (decodeByte ctx b, rest)

/-- The context an instruction's byte is read in. -/
def Instr.context : Instr → ByteContext
  | .addr _ _ => .address
  | .rdAll => .command
  | .rdX1 => .command
  | .rdY1 => .command
  | .rdX2 => .command
  | .rdY2 => .command
  | .rdBtn => .command
  | .calA1 => .command
  | .calB1 => .command
  | .calF1 => .command
  | .calA2 => .command
  | .calB2 => .command
  | .calF2 => .command
  | .rdRaw => .command
  | .rdTrim => .command
  | .opaqueMode _ => .command

/-- The byte of an instruction (R90, R92). -/
def encodeByte : Instr → Byte
  | .addr a r => a ++ BitVec.ofBool r
  | .rdAll => 0x00#8
  | .rdX1 => 0x01#8
  | .rdY1 => 0x02#8
  | .rdX2 => 0x03#8
  | .rdY2 => 0x04#8
  | .rdBtn => 0x05#8
  | .calA1 => 0x20#8
  | .calB1 => 0x21#8
  | .calF1 => 0x22#8
  | .calA2 => 0x23#8
  | .calB2 => 0x24#8
  | .calF2 => 0x25#8
  | .rdRaw => 0x80#8
  | .rdTrim => 0x81#8
  | .opaqueMode c => c

/-- The bytes of an instruction: one (R103). -/
def encode (i : Instr) : List Byte := [encodeByte i]

/-- The instruction of `decode`, without the rest of the bytes. -/
def decodedInstr (ctx : ByteContext) (bs : List Byte) : Option Instr :=
  match decode ctx bs with
  | .ok (i, _) => some i
  | .error _ => none

/-- The instruction the decoder reads from the word `w` of `nbits` bits. A row of the table is one byte (R103).
DESIGN CHOICE (log 16): a bare byte is read as a command byte; the bits alone do not tell the `ADDR` row from it. -/
def decodeTableWord (nbits w : Nat) : Option Instr :=
  decodedInstr .command [BitVec.ofNat 8 (w % 2 ^ nbits)]

end Sys2Proof
end

