-- ==== Sys2Proof/Config.lean ====
section
/-! DEFINITION. What an implementation fixes (the parameters of R7, R8), the moves the agents of R10 can make, and the free values the spec leaves open. -/

namespace Sys2Proof

/-- The physical bus backend in use (R7, R161 to R164). -/
inductive Backend where
  | shiftRegister
  | controller
  | softwareBitbang
deriving DecidableEq, Repr

/-- A trim record: `{min_resistance, max_resistance, scale_factor}`, 16 bits each (R63). -/
structure TrimRecord where
  minR : Word
  maxR : Word
  factor : Word
deriving DecidableEq, Repr

/-- The parameters R7 leaves open or settable. They are fixed for a run (R20). -/
structure Params where
  /-- `CAPTURE_LIMIT`, phase-A deadline in counter ticks. -/
  captureLimit : Nat
  /-- `SCAN_PERIOD`, channel cycle in counter ticks. -/
  scanPeriod : Nat
  /-- `MAX_EXPECTED_TICKS`, read by the design-time warning only. -/
  maxExpectedTicks : Nat
  /-- `DEB_THRESHOLD`. -/
  debThreshold : Nat
  /-- `BTN_ACTIVE_LOW`. -/
  btnActiveLow : Bool
  /-- `SLAVE_ADDR`. -/
  slaveAddr : BitVec 7
  /-- `ADDR_MASK`. -/
  addrMask : BitVec 7
  /-- `BACKEND`. -/
  backend : Backend
  /-- `NV_BASE`. -/
  nvBase : Nat
  /-- `TRIM_DEFAULT[0..3]`. -/
  trimDefault : Vector TrimRecord 4
  /-- `CONVERT_SUBTRACT_MIN`. -/
  convertSubtractMin : Bool
  /-- `RAW_STREAM_SNAPSHOT`. -/
  rawStreamSnapshot : Bool
  /-- `T_DEB`: no rule reads it (D31, R370). -/
  tDeb : Nat
  /-- `F_BUS`: no rule reads it (D31, R165). -/
  fBus : Nat
deriving DecidableEq, Repr

/-- `RAW_INVALID`, the reserved sentinel (R24, R97). -/
def rawInvalid : Word := 0xFFFF#16

/-- `DESIRED_MIN_READING` (R7). -/
def desiredMinReading : Int := 8

/-- `DESIRED_MAX_READING` (R7). -/
def desiredMaxReading : Int := 247

/-- `ABSOLUTE_MIN_READING` (R7, C4). -/
def absoluteMinReading : Int := 0

/-- `ABSOLUTE_MAX_READING` (R7). -/
def absoluteMaxReading : Int := 255

/-- `SCALE_MUL` (R7). -/
def scaleMul : Int := 6

/-- The constraints of R7 and R8 that a well-formed configuration meets. -/
def Params.wf (p : Params) : Bool :=
  decide (1 ≤ p.captureLimit) && decide (p.captureLimit ≤ 0xFFFE) &&
  decide (p.captureLimit < p.scanPeriod) && decide (p.scanPeriod ≤ 0xFFFF) &&
  decide (1 ≤ p.debThreshold)

/-- The backends that serve the slave role (R7, R164). -/
def Params.servesSlave (p : Params) : Bool := p.backend != .softwareBitbang

/-- A configuration over which the block runs and claims are stated (R8, R164). -/
def Params.ok (p : Params) : Bool := p.wf && p.servesSlave

/-- The design-time check of R8 and R359: a warning, not a refusal. -/
def Params.warnsExpectedTicks (p : Params) : Bool := decide (p.captureLimit < p.maxExpectedTicks)

/-- The configuration of the spec's test vectors (95_test_vectors.md).
DESIGN CHOICE (log 2), unsafe: the parameters the spec leaves open have these values in `State.reset` only. -/
def Params.reference : Params where
  captureLimit := 5000
  scanPeriod := 8000
  maxExpectedTicks := 4999
  debThreshold := 4
  btnActiveLow := false
  slaveAddr := 0x28#7
  addrMask := 0x7E#7
  backend := .shiftRegister
  nvBase := 0
  trimDefault := #v[⟨100, 4000, 97⟩, ⟨100, 4000, 97⟩, ⟨100, 4000, 97⟩, ⟨100, 4000, 97⟩]
  convertSubtractMin := true
  rawStreamSnapshot := false
  tDeb := 0
  fBus := 0

/-- Operations the spec names and excludes (R5): the master role (U7) and the telemetry collaborator (U22). No agent of R10 makes one. -/
inductive ExcludedOp where
  | beginTransaction
  | repeatStart
  | masterSendByte (b : Byte)
  | masterReceiveByte (ack : Bool)
  | endTransaction
  | telemetryFrame
  | batteryLowFrame
deriving DecidableEq, Repr

/-- One move of one agent (R10). -/
inductive Move where
  /-- counter: `TICK`. -/
  | tick
  /-- analog environment: the comparator output takes this level; a rise is `TRIP` (R121). -/
  | cmp (level : Bool)
  /-- debounce timer: its period ends, `EV_D`. -/
  | evD
  /-- button environment: the button pins take these levels. -/
  | btn (pins : BitVec 4)
  /-- bus peer, line level: it pulls the data line low (`true`) or releases it. -/
  | peerSda (pull : Bool)
  /-- bus peer, line level: it pulls the clock line low (`true`) or releases it. -/
  | peerScl (pull : Bool)
  /-- bus peer, byte level: `S` or `Sr`. -/
  | start
  /-- bus peer, byte level: `P`. -/
  | stop
  /-- bus peer, byte level: the host sends a byte and reads the acknowledgement. -/
  | wbyte (b : Byte)
  /-- bus peer, byte level: the host reads a byte and answers ACK (`true`) or NACK. -/
  | rbyte (ack : Bool)
  /-- bus peer, byte level: the rest of a `WBYTE` the block stretched in the middle: these data bits, then the acknowledgement slot. -/
  | wrest (bits : List Bool)
  /-- bus peer, byte level: the rest of an `RBYTE` the block stretched in the middle: `left` data bits after those in `acc`, then the answer. -/
  | rrest (left : Nat) (acc : Byte) (ack : Bool)
  /-- non-volatile store: the write in flight retires (R65). -/
  | retire
  /-- main context: its next step; between operations it begins `DISPATCH`. -/
  | dispatch
  /-- main context: its next step; between operations it runs `CONVERT`. -/
  | convert
deriving DecidableEq, Repr, Inhabited

/-- FREE VALUE (log 5): the byte fetched when there is no valid source, fresh per draw (R214, U1). -/
opaque Config.freeByte : Nat → Byte

/-- FREE VALUE (log 6): the result of `Convert` when the stored scale factor is 0 (R270, U3). -/
opaque Config.freeOutput : Nat → Byte

/-- FREE VALUE (log 7): the result of `ScaleFactor` when max is below min (R274, U4). -/
opaque Config.freeFactor : Nat → Word

/-- FREE VALUE (log 1): the next agent's move when none has been scheduled (R76, R343, R344). -/
opaque Config.freeMove : Nat → Move

end Sys2Proof
end

