-- ==== Sys2Proof/Machine/State.lean ====
section
/-! DEFINITION. The state of the potiscan block (R20 to R30), the environment inputs it samples, where the main context stands, the state after reset (R340), and the reasons a step can stop. -/

namespace Sys2Proof.Machine

/-- `PHASE`: phase A is `charging`, phase B is `discharging` (R23). -/
inductive Phase where
  | charging
  | discharging
deriving DecidableEq, Repr

/-- `BUS_STATE`, the slave state machine of the protocol layer (R29, R181). -/
inductive BusState where
  | idle
  | addressPhase
  | readTransfer
  | writeTransfer
deriving DecidableEq, Repr

/-- The status values of the bus primitives (R300). -/
inductive Status where
  | noMatch
  | matched (a : BitVec 7) (rw : Bool)
  | byte (b : Byte)
  | acked
  | nacked
  | aborted
deriving DecidableEq, Repr

/-- The `ack` operand of `RxByte`: a constant, or the address predicate under a mask (R157, R182). -/
inductive AckPolicy where
  | const (ack : Bool)
  | addressMatch (mask : BitVec 7)
deriving DecidableEq, Repr

/-- The byte primitive in progress (R156 to R158): its phase, or the result the main context has not taken yet. With `BACKEND =
Controller` the peripheral also runs it for the address byte of an access the main context has not polled yet (R163, R168, log 31). -/
inductive Xfer where
  /-- no primitive in progress. -/
  | halted
  /-- `RxByte`, the eight data bits. -/
  | rxData (ack : AckPolicy)
  /-- `RxByte`, the acknowledgement slot. -/
  | rxAck
  /-- `TxByte`, the eight data bits. -/
  | txData
  /-- `TxByte`, the acknowledgement slot, before the rising edge of its pulse. -/
  | txAck
  /-- `TxByte`, the acknowledgement sampled (`true` = ACK), until the clock falls. -/
  | txSampled (acked : Bool)
  /-- the primitive has ended with this status. -/
  | finished (r : Status)
deriving DecidableEq, Repr

/-- Which `RxByte` the main context runs: the address byte's or the command byte's (R182, R184). -/
inductive RxUse where
  | address
  | command
deriving DecidableEq, Repr

/-- The write of the entry of `RxByte` that comes next (R157). -/
inductive RxEntry where
  /-- `STOP_F <- 0` -/
  | clearStop
  /-- `SDA_PULL <- 0` -/
  | releaseData
  /-- `BITCNT <- 8` -/
  | loadCount
  /-- `SCL_PULL <- 0`, with which the primitive is in progress -/
  | releaseClock
deriving DecidableEq, Repr

/-- The write of the entry of `TxByte` that comes next (R158). -/
inductive TxEntry where
  /-- `STOP_F <- 0` -/
  | clearStop
  /-- `SR <- b` -/
  | loadByte
  /-- `BITCNT <- 8` -/
  | loadCount
  /-- `SDA_PULL <- not SR[7]` -/
  | setBit
  /-- `SCL_PULL <- 0`, with which the primitive is in progress -/
  | releaseClock
deriving DecidableEq, Repr

/-- What the first step of `StreamByte` has read (R213, R215, R216). -/
inductive Fetched where
  /-- the byte itself. -/
  | byte (b : Byte)
  /-- `DEB`; `INVALID` is read next. -/
  | debounced (d : BitVec 4)
  /-- the sample stands in `SNAP`; its half is read next. -/
  | snapshot
deriving DecidableEq, Repr

/-- Where the main context stands between two of its atomic steps (R10, R182, R186, R210 to R212, R266). -/
inductive MainPoint where
  /-- between operations of the main loop (R343). -/
  | loop
  /-- in `await_address`, a start found pending, or on the controller a completed address byte; `START_F <- 0` next. -/
  | startSeen
  /-- in `await_address`, the start consumed; `BUS_STATE <- AddressPhase` next. -/
  | startTaken
  /-- at the entry of `RxByte`. -/
  | rxEntry (e : RxEntry) (u : RxUse)
  /-- in `await_address`, `RxByte` in progress or complete; the writes of a match are counted by `progress`. -/
  | awaitAddress
  /-- in `WriteAccess`, `receive_byte` about to be called. -/
  | writeAccess
  /-- in `receive_byte`, `RxByte` in progress or complete. -/
  | receiveByte
  /-- in `WriteAccess`, `Execute` of the command byte `c` in progress; how far is the field `progress`. -/
  | execute (c : Byte)
  /-- in `WriteAccess`, `Execute` over; `BUS_STATE <- Idle` of `end_access` next. -/
  | endAccess
  /-- in `end_access`, `SDA_PULL <- 0` next. -/
  | endData
  /-- in `end_access`, `SCL_PULL <- 0` next. -/
  | endClock
  /-- at the start of `ReadAccess`. -/
  | readAccess
  /-- in `ReadAccess`, the next byte is to be fetched. -/
  | streamByte
  /-- in `StreamByte`, the byte is to be put together from what was read. -/
  | composeByte (f : Fetched)
  /-- in `StreamByte`, the byte `b` fetched, the cursor is to be advanced. -/
  | advance (b : Byte)
  /-- in `send_byte(b)`, at the entry of `TxByte`. -/
  | txEntry (e : TxEntry) (b : Byte)
  /-- in `send_byte`, `TxByte` in progress or complete. -/
  | sendByte
  /-- in `CONVERT`, the sample `r` of channel `ch` taken, the invalid flag next. -/
  | convertFlag (ch : Chan) (r : Word)
  /-- in `CONVERT`, the stored minimum is read next. -/
  | convertMin (ch : Chan) (r : Word)
  /-- in `CONVERT`, the stored maximum is read next. -/
  | convertMax (ch : Chan) (r mn : Word)
  /-- in `CONVERT`, the stored factor is read next. -/
  | convertFactor (ch : Chan) (r mn : Word)
  /-- in `CONVERT`, the output byte is written next. -/
  | convertOut (ch : Chan) (r mn f : Word)
deriving DecidableEq, Repr

/-- How far a decoded byte whose meaning has several atomic steps has come, with what it has read (R10, R182, R275, R276). -/
inductive Progress where
  /-- nothing of it done yet, or all of it. -/
  | fresh
  /-- `ADDR`, a match: `MATCHED` written, `DIR` next. -/
  | addressDir
  /-- `ADDR`, a match: `DIR` written, `BUS_STATE` next. -/
  | addressState
  /-- `CornerSet`: both samples read, the write of the X channel next. -/
  | cornerFirst (x y : Word)
  /-- `CornerSet`: the write of the Y channel next. -/
  | cornerSecond (y : Word)
  /-- `Recompute`: the stored minimum of `ch` is read next. -/
  | recomputeMin (ch : Chan)
  /-- `Recompute`: the stored maximum is read next. -/
  | recomputeMax (ch : Chan) (mn : Word)
  /-- `Recompute`: the stored factor is read, and compared with the new one, next. -/
  | recomputeFactor (ch : Chan) (mn mx : Word)
  /-- `Recompute`: the new factor is written next. -/
  | recomputeWrite (ch : Chan) (new : Word)
deriving DecidableEq, Repr

/-- What the main loop runs next when it is between operations (R343). -/
inductive LoopChoice where
  | dispatch
  | convert
deriving DecidableEq, Repr

/-- What the bus host observes of its own byte-level action (R187). -/
inductive HostSaw where
  | ack (acked : Bool)
  | byte (b : Byte)
deriving DecidableEq, Repr

/-- The state of the machine. `cfg` is the configuration, constant in a run (R20); the last three groups hold the inputs the
block samples and what the spec only implies. -/
structure State where
  cfg : Params
  -- CAP (R21 to R25)
  /-- `CNT` -/
  cnt : Word
  /-- `OCA` -/
  oca : Word
  /-- `OCB` -/
  ocb : Word
  /-- `T0` -/
  t0 : Word
  /-- `ICR` -/
  icr : Word
  /-- `CAPF` -/
  capf : Bool
  /-- `PHASE` -/
  phase : Phase
  /-- `NEXT` -/
  next : Chan
  /-- `READY` -/
  ready : Chan
  /-- `UPDATED` -/
  updated : Bool
  /-- `RAW[0..3]` -/
  raw : Vector Word 4
  /-- `DRIVE` -/
  drive : BitVec 4
  /-- `DISCH` -/
  disch : Bool
  -- DEB (R26)
  /-- `DBC[0..3]` -/
  dbc : Vector Nat 4
  /-- `DEB` -/
  deb : BitVec 4
  -- BUS (R27 to R29)
  /-- `SDA_PULL` -/
  sdaPull : Bool
  /-- `SCL_PULL` -/
  sclPull : Bool
  /-- `SR` -/
  sr : Byte
  /-- `BITCNT` -/
  bitcnt : BitVec 4
  /-- `START_F` -/
  startF : Bool
  /-- `STOP_F` -/
  stopF : Bool
  /-- `BUS_STATE` -/
  busState : BusState
  /-- `MATCHED` -/
  matched : BitVec 7
  /-- `DIR`, true = read -/
  dir : Bool
  /-- `MODE` -/
  mode : Option Byte
  /-- `CURSOR` -/
  cursor : Fin 24
  /-- `SNAP` -/
  snap : Word
  -- companion logic (R30)
  /-- `OUT[0..3]` -/
  out : Vector Byte 4
  /-- `INVALID` -/
  invalid : BitVec 4
  /-- `NV`: the bytes that differ from the factory table, addresses rising (R278) -/
  nv : List Host.Cell
  /-- `NV_BUSY` -/
  nvBusy : Bool
  /-- `NV_WRITES`, ghost -/
  nvWrites : Nat
  /-- `IE` -/
  ie : Bool
  -- sequencing the spec implies
  /-- the byte primitive in progress -/
  xfer : Xfer
  /-- where the main context stands -/
  main : MainPoint
  /-- how far the byte being executed has come -/
  progress : Progress
  /-- the low byte of a stored word whose high byte is read next (R10, R64) -/
  lowByte : Option Byte
  -- environment inputs (R20, R27, R121, R251)
  /-- `CMP` -/
  cmp : Bool
  /-- `BTN_IN` -/
  btnIn : BitVec 4
  /-- the peer pulls the data line -/
  peerSda : Bool
  /-- the peer pulls the clock line -/
  peerScl : Bool
  -- the model's own: observation, order of the agents, free values
  /-- what the host observed of its last byte-level action (R187) -/
  hostSaw : Option HostSaw
  /-- the agents' next moves, in order (log 1) -/
  sched : List Move
  /-- number of free values drawn -/
  draws : Nat
  /-- an operation outside the scope that a caller asks for (R5) -/
  asked : Option ExcludedOp
deriving DecidableEq, Repr

/-- Reasons a step stops with a fault. No rule of the spec produces one (R304); both are reached only from states outside the invariant
of R32. -/
inductive Fault where
  /-- `StreamByte` in mode 0 at a cursor above 4: that index of `OUTMEM` does not exist (R62). Safe. -/
  | outmemIndexAbsent
  /-- `StreamByte` in mode 128 at a cursor above 7: that index of the raw stream does not exist (R60). Safe. -/
  | rawStreamIndexAbsent
deriving DecidableEq, Repr

/-- Reasons a step refuses. -/
inductive Refusal where
  /-- raised by `exec` for an instruction with no meaning yet. Safe. -/
  | notModelled (mnemonic : String)
  /-- raised by `step` when a caller asks for an operation R5 puts out of scope (U7, U22). Safe. -/
  | excluded (op : ExcludedOp)
  /-- raised by `step` when the configuration breaks R8 (U10). Safe. -/
  | illFormedConfig
  /-- raised by `step` and by the meaning of `ADDR` when `BACKEND = SoftwareBitbang`, which has no slave role (R164, U8). Safe. -/
  | softwareBitbangSlave
deriving DecidableEq, Repr

/-- The registers R340 leaves unspecified: `any(N)` after reset, until first written (R33, U6). -/
structure ResetDraws where
  icr : Word
  raw : Vector Word 4
  sr : Byte
  matched : BitVec 7
  dir : Bool
  snap : Word
  out : Vector Byte 4
  invalid : BitVec 4
deriving DecidableEq, Repr

/-- The values `State.reset` takes for the registers R340 leaves unspecified.
DESIGN CHOICE (log 3), unsafe. -/
def ResetDraws.zero : ResetDraws where
  icr := 0
  raw := #v[0, 0, 0, 0]
  sr := 0
  matched := 0
  dir := false
  snap := 0
  out := #v[0, 0, 0, 0]
  invalid := 0

/-- The state after reset and initialisation (R340) in configuration `p`, with the unspecified registers as drawn in `d` and the
surviving trim store `nv`. -/
def State.resetWith (p : Params) (d : ResetDraws) (nv : List Host.Cell) : State where
  cfg := p
  cnt := 0
  oca := BitVec.ofNat 16 p.captureLimit
  ocb := BitVec.ofNat 16 p.scanPeriod
  t0 := 0
  icr := d.icr
  capf := false
  phase := .discharging
  next := 0
  ready := 0
  updated := false
  raw := d.raw
  drive := 0
  disch := true
  dbc := #v[0, 0, 0, 0]
  deb := 0
  sdaPull := false
  sclPull := false
  sr := d.sr
  bitcnt := 0
  startF := false
  stopF := false
  busState := .idle
  matched := d.matched
  dir := d.dir
  mode := none
  cursor := 0
  snap := d.snap
  out := d.out
  invalid := d.invalid
  nv := nv
  nvBusy := false
  nvWrites := 0
  ie := true
  xfer := .halted
  main := .loop
  progress := .fresh
  lowByte := none
  cmp := false
  btnIn := 0
  peerSda := false
  peerScl := false
  hostSaw := none
  sched := []
  draws := 0
  asked := none

/-- The machine right after its first power-up in the reference configuration: the trim store as populated at build time. -/
def State.reset : State := State.resetWith Params.reference ResetDraws.zero []

/-- Reset of a running block: every element as R340 says, the trim store kept (R278). No agent of R10 takes this step (log 25). -/
def State.restart (d : ResetDraws) (s : State) : State := State.resetWith s.cfg d s.nv

end Sys2Proof.Machine
end

