-- ==== Sys2Proof/Machine/Memory.lean ====
section
/-! DEFINITION. The bytes of the non-volatile trim store, `NVMEM` (R60, R63): a sorted list of the bytes that differ from the factory table. -/

namespace Sys2Proof.Machine

/-- Byte `k` of a trim record: min, max, factor, each low byte first (R63, R68). -/
def trimRecordByte (r : TrimRecord) : Fin 6 → Byte
  | 0 => r.minR.lo
  | 1 => r.minR.hi
  | 2 => r.maxR.lo
  | 3 => r.maxR.hi
  | 4 => r.factor.lo
  | 5 => r.factor.hi

/-- Byte `k` of the factory table: records packed in channel order (R63, R278). -/
def factoryByte (p : Params) (k : Fin 24) : Byte :=
  trimRecordByte (p.trimDefault[k.val / 6]'(by omega)) ⟨k.val % 6, Nat.mod_lt _ (by decide)⟩

/-- What an address with no entry in the list reads as: the factory byte (R278, R340). No operation reads outside the table (R70). -/
def unlistedByte (p : Params) (a : Nat) : Byte :=
  if h : a - p.nvBase < 24 then factoryByte p ⟨a - p.nvBase, h⟩ else 0

/-- The byte listed at an address, if any. -/
def memFind : List Host.Cell → Nat → Option Byte
  | [], _ => none
  | c :: rest, a => if c.1 = a then some c.2 else memFind rest a

/-- The byte at an address. -/
def memRead (p : Params) (m : List Host.Cell) (a : Nat) : Byte :=
  (memFind m a).getD (unlistedByte p a)

/-- The list without an entry at the address. -/
def memErase : List Host.Cell → Nat → List Host.Cell
  | [], _ => []
  | c :: rest, a => if c.1 = a then rest else c :: memErase rest a

/-- The list with this entry at the address, addresses rising. -/
def memPut : List Host.Cell → Nat → Byte → List Host.Cell
  | [], a, b => [(a, b)]
  | c :: rest, a, b =>
    if a < c.1 then (a, b) :: c :: rest
    else if c.1 = a then (a, b) :: rest
    else c :: memPut rest a b

/-- Write one byte, keeping the canonical form: a byte equal to what an unlisted address reads as is not listed. -/
def memWrite (p : Params) (m : List Host.Cell) (a : Nat) (b : Byte) : List Host.Cell :=
  if b = unlistedByte p a then memErase m a else memPut m a b

/-- Every address of the list is above `lo`, and they rise strictly. -/
def memRising : Nat → List Host.Cell → Bool
  | _, [] => true
  | lo, c :: rest => decide (lo ≤ c.1) && memRising (c.1 + 1) rest

/-- The canonical form: addresses strictly rising inside the table, no entry equal to the factory byte. -/
def Memory.wf (p : Params) (m : List Host.Cell) : Bool :=
  memRising p.nvBase m &&
  m.all fun c => decide (c.1 < p.nvBase + 24) && decide (c.2 ≠ unlistedByte p c.1)

end Sys2Proof.Machine
end

