-- ==== Sys2Proof/Machine/Operands.lean ====
section
/-! DEFINITION. Operands: what a command value selects (R99), where a trim field lies (R63, R265), which address matches (R91), how long a stream is (R213). -/

namespace Sys2Proof.Machine

/-- The X channel of a joystick, `2j` (R99). -/
def joystickX (j : Joystick) : Chan := ⟨2 * j.val, by omega⟩

/-- The Y channel of a joystick, `2j + 1` (R99). -/
def joystickY (j : Joystick) : Chan := ⟨2 * j.val + 1, by omega⟩

/-- A field of a trim record, in storage order (R63). -/
inductive TrimField where
  | min
  | max
  | factor
deriving DecidableEq, Repr

/-- Position of a field in its record, in words. -/
def TrimField.word : TrimField → Fin 3
  | .min => 0
  | .max => 1
  | .factor => 2

/-- The word of the store that holds a field of a channel: word `w` lies at `NV_BASE + 2*w`. Words are the only 16-bit operands, so an
access is aligned and inside the table by construction (R64, R70). -/
def trimWord (ch : Chan) (f : TrimField) : Fin 12 := ⟨3 * ch.val + f.word.val, by omega⟩

/-- The offset of the low byte of a word. -/
def wordLo (w : Fin 12) : Fin 24 := ⟨2 * w.val, by omega⟩

/-- The offset of the high byte of a word. -/
def wordHi (w : Fin 12) : Fin 24 := ⟨2 * w.val + 1, by omega⟩

/-- The address of a byte of the table. -/
def nvAddr (p : Params) (k : Fin 24) : Nat := p.nvBase + k.val

/-- `TrimAddr(ch, field)` (R265). -/
def trimAddr (p : Params) (ch : Chan) (f : TrimField) : Nat := nvAddr p (wordLo (trimWord ch f))

/-- The address match under a mask (R91). -/
def addressMatches (p : Params) (mask a : BitVec 7) : Bool := (a &&& mask) == (p.slaveAddr &&& mask)

/-- `ADDR[6:0]` of an address byte (R90). -/
def addrField (b : Byte) : BitVec 7 := b.extractLsb' 1 7

/-- `RW` of an address byte, 1 = read (R90). -/
def rwField (b : Byte) : Bool := b.getLsbD 0

/-- The `ack` operand of `RxByte`, evaluated on the eight received bits (R157, R182). -/
def AckPolicy.eval (p : Params) (b : Byte) : AckPolicy → Bool
  | .const ack => ack
  | .addressMatch mask => addressMatches p mask (addrField b)

/-- The stream a read selector names (R213). -/
inductive Source where
  /-- the five output slots. -/
  | all
  /-- one channel's output byte. -/
  | channel (ch : Chan)
  /-- the buttons byte. -/
  | buttons
  /-- the raw samples. -/
  | rawSamples
  /-- the trim table. -/
  | trimTable
  /-- no valid source (R214). -/
  | nothing
deriving DecidableEq, Repr

/-- The source selected by `MODE` (R213, R214). -/
def sourceOf : Option Byte → Source
  | none => .nothing
  | some c =>
    if c = 0#8 then .all
    else if c = 1#8 then .channel 0
    else if c = 2#8 then .channel 1
    else if c = 3#8 then .channel 2
    else if c = 4#8 then .channel 3
    else if c = 5#8 then .buttons
    else if c = 128#8 then .rawSamples
    else if c = 129#8 then .trimTable
    else .nothing

/-- The length of a stream (R213). -/
def Source.len : Source → Nat
  | .all => 5
  | .channel _ => 1
  | .buttons => 1
  | .rawSamples => 8
  | .trimTable => 24
  | .nothing => 0

/-- The cursor after a byte of a stream of length `len` has been fetched: one on, wrapping; unchanged when there is no source (R213). -/
def advanceCursor (len : Nat) (c : Fin 24) : Fin 24 :=
  if len = 0 then c else ⟨(c.val + 1) % len % 24, Nat.mod_lt _ (by decide)⟩

end Sys2Proof.Machine
end

