-- ==== Sys2Proof/Machine/Ops.lean ====
section
/-! DEFINITION. The named operations over registers and the trim store: admission of an interrupt-context step, the critical section, reads and the commit of a store write, and the free values. -/

namespace Sys2Proof.Machine

/-- Take an interrupt: an interrupt-context step takes effect only while `IE = 1`; it saves nothing, goes to no vector and its
effect is the handler's, whole (R72, R311, R315). There is no return instruction: the main context goes on where it was (R316). -/
def takeInterrupt (handler : State → State) (s : State) : State := if s.ie then handler s else s

/-- `critical { body }`: one atomic step of the main context with `IE = 0`, the previous enable restored (R72, R312). -/
def critical {α : Type} (body : State → α × State) (s : State) : α × State :=
  let r := body { s with ie := false }
  (r.1, { r.2 with ie := s.ie })

/-- `RAW[ch]`. -/
def State.rawAt (s : State) (ch : Chan) : Word := s.raw[ch]

/-- `OUT[ch]`. -/
def State.outAt (s : State) (ch : Chan) : Byte := s.out[ch]

/-- `NV[NV_BASE + k]`. -/
def State.nvByte (s : State) (k : Fin 24) : Byte := memRead s.cfg s.nv (nvAddr s.cfg k)

/-- The 16-bit word `w` of the store, `{NV[a+1], NV[a]}` (R64). -/
def State.nvWord (s : State) (w : Fin 12) : Word := Word.ofBytes (s.nvByte (wordLo w)) (s.nvByte (wordHi w))

/-- A stored trim field. -/
def State.trim (s : State) (ch : Chan) (f : TrimField) : Word := s.nvWord (trimWord ch f)

/-- The stored bytes with one byte written. -/
def State.nvWith (s : State) (m : List Host.Cell) (k : Fin 24) (b : Byte) : List Host.Cell :=
  memWrite s.cfg m (nvAddr s.cfg k) b

/-- The commit of `NvWrite16`: both bytes, `NV_BUSY` and the write count in one critical section (R64). -/
def nvCommit (w : Fin 12) (v : Word) (s : State) : State :=
  (critical (fun s1 =>
    ((), { s1 with
            nv := s1.nvWith (s1.nvWith s1.nv (wordLo w) v.lo) (wordHi w) v.hi
            nvBusy := true
            nvWrites := s1.nvWrites + 1 })) s).2

/-- The store agent's step: the write in flight retires (R65). -/
def retire (s : State) : State := { s with nvBusy := false }

/-- A byte the spec leaves open, `any(8)`, fresh per draw (R214). -/
def drawByte (s : State) : Byte × State :=
  (Config.freeByte s.draws, { s with draws := s.draws + 1 })

/-- The unspecified result of `Convert` (R270). -/
def drawOutput (s : State) : Byte × State :=
  (Config.freeOutput s.draws, { s with draws := s.draws + 1 })

/-- The unspecified result of `ScaleFactor` (R274). -/
def drawFactor (s : State) : Word × State :=
  (Config.freeFactor s.draws, { s with draws := s.draws + 1 })

end Sys2Proof.Machine
end

