-- ==== Sys2Proof/Machine/Flags.lean ====
section
/-! DEFINITION. Flag computations: the invalid flags and the buttons byte, the invalid test, the pin patterns, the logical button inputs. -/

namespace Sys2Proof.Machine

/-- The 4-bit value with only bit `i` set (R9). -/
def onehot (i : Chan) : BitVec 4 := 1#4 <<< i.val

/-- Four bits from their values. -/
def bits4 (f : Fin 4 → Bool) : BitVec 4 :=
  BitVec.ofBool (f 3) ++ BitVec.ofBool (f 2) ++ BitVec.ofBool (f 1) ++ BitVec.ofBool (f 0)

/-- Bit `i` of a four-bit register set to `v`. -/
def setBit4 (b : BitVec 4) (i : Fin 4) (v : Bool) : BitVec 4 :=
  if v then b ||| onehot i else b &&& ~~~ onehot i

/-- The invalid test of a raw sample: at or above the capture limit (R267, C1). -/
def sampleInvalid (p : Params) (raw : Word) : Bool := decide (p.captureLimit ≤ raw.toNat)

/-- The logical value of button `i`, `BTN_IN[i] xor BTN_ACTIVE_LOW` (R251). -/
def pressed (s : State) (i : Fin 4) : Bool := Bool.xor (s.btnIn.getLsbD i.val) s.cfg.btnActiveLow

/-- `{INVALID[3:0], DEB[3:0]}` (R93). -/
def packButtons (invalid deb : BitVec 4) : Byte := invalid ++ deb

/-- `critical { d <- DEB }`, the first step of `ButtonsByte()` (R216). -/
def readDeb (s : State) : BitVec 4 := (critical (fun s1 => (s1.deb, s1)) s).1

end Sys2Proof.Machine
end

