-- ==== Sys2Proof/Machine/Capture.lean ====
section
/-! DEFINITION. CAP, the RC-ramp sampler (40_capture.md): the counter step, the two compare events, the comparator trip. -/

namespace Sys2Proof.Machine

/-- The guard of `EV_A`: `PHASE = Charging` and `CNT = OCA` (R126). -/
def evADue (s : State) : Bool := decide (s.phase = .charging) && decide (s.cnt = s.oca)

/-- The guard of `EV_B`: `PHASE = Discharging` and `CNT = OCB` (R124). -/
def evBDue (s : State) : Bool := decide (s.phase = .discharging) && decide (s.cnt = s.ocb)

/-- A compare event is due. -/
def compareDue (s : State) : Bool := evADue s || evBDue s

/-- `EV_B`: start charging channel `NEXT` (R124). -/
def evB (s : State) : State :=
  { s with
    disch := false
    drive := onehot s.next
    t0 := s.cnt
    capf := false
    oca := s.cnt + BitVec.ofNat 16 s.cfg.captureLimit
    ocb := s.cnt + BitVec.ofNat 16 s.cfg.scanPeriod
    phase := .charging }

/-- The sample `EV_A` records: elapsed ticks, or the sentinel when nothing was captured (R126, C7). -/
def sampleTaken (s : State) : Word := if s.capf then s.icr - s.t0 else rawInvalid

/-- `EV_A`: record the sample, start discharging, advance the cursor (R126). -/
def evA (s : State) : State :=
  { s with
    raw := s.raw.set s.next (sampleTaken s)
    ready := s.next
    updated := true
    drive := 0
    disch := true
    next := s.next + 1
    phase := .discharging }

/-- The compare event that is due, as an interrupt of the capture level (R310, R313). -/
def compareEvent (s : State) : State :=
  takeInterrupt (fun s1 => if evADue s1 then evA s1 else if evBDue s1 then evB s1 else s1) s

/-- `TICK` (R123): its guard is that no compare event is due (R122); inside a critical block no tick elapses (R312). -/
def tick (s : State) : State := if compareDue s || !s.ie then s else { s with cnt := s.cnt + 1 }

/-- `TRIP`: the capture unit latches the first trip of a phase A (R125). -/
def trip (s : State) : State :=
  if decide (s.phase = .charging) && !s.capf then { s with icr := s.cnt, capf := true } else s

/-- The comparator output takes a level; only a change from 0 to 1 is a trip (R121, R358). -/
def setCmp (level : Bool) (s : State) : State :=
  let s1 := { s with cmp := level }
  if level && !s.cmp then trip s1 else s1

end Sys2Proof.Machine
end

