-- ==== Sys2Proof/Machine/Debounce.lean ====
section
/-! DEFINITION. DEB, the debounce register and threshold comparator (44_debounce.md). -/

namespace Sys2Proof.Machine

/-- One debounce tick of one button: the new debounced bit and the new count (R252). -/
def debounceStep (threshold : Nat) (p : Bool) (deb : Bool) (count : Nat) : Bool × Nat :=
  if p = deb then (deb, 0)
  else if threshold ≤ count + 1 then (p, 0)
  else (deb, count + 1)

/-- The tick of button `i` on the state's registers. -/
def debounceButton (s : State) (i : Fin 4) : Bool × Nat :=
  debounceStep s.cfg.debThreshold (pressed s i) (s.deb.getLsbD i.val) s.dbc[i]

/-- `EV_D`: one debounce tick of the four buttons, an interrupt of the debounce level (R252, R253, R310). -/
def evD (s : State) : State :=
  takeInterrupt (fun s1 =>
    { s1 with
      deb := bits4 fun i => (debounceButton s1 i).1
      dbc := #v[(debounceButton s1 0).2, (debounceButton s1 1).2, (debounceButton s1 2).2, (debounceButton s1 3).2] }) s

/-- The button pins take these levels (R251). -/
def setButtons (pins : BitVec 4) (s : State) : State := { s with btnIn := pins }

end Sys2Proof.Machine
end

