-- ==== Sys2Proof/Machine/Line.lean ====
section
/-! DEFINITION. BUS transport at line level (41_bus_line.md): the wired lines, the start and stop detectors, the shifter's reaction to clock edges, and the writes by which the two byte primitives begin. -/

namespace Sys2Proof.Machine

/-- The level of the data line: low when anyone pulls it (R27, R151). -/
def State.sda (s : State) : Bool := !(s.sdaPull || s.peerSda)

/-- The level of the clock line (R27, R151). -/
def State.scl (s : State) : Bool := !(s.sclPull || s.peerScl)

/-- A byte primitive is in progress. -/
def Xfer.active : Xfer → Bool
  | .halted => false
  | .rxData _ => true
  | .rxAck => true
  | .txData => true
  | .txAck => true
  | .txSampled _ => true
  | .finished _ => false

/-- `BUS_STATE` is `Idle` in the middle of `await_address` or `end_access`: the block is between two of their writes, not between
transactions (R182, R186, log 8). -/
def MainPoint.changingOver : MainPoint → Bool
  | .startSeen => true
  | .startTaken => true
  | .endData => true
  | .endClock => true
  | .loop => false
  | .rxEntry _ _ => false
  | .awaitAddress => false
  | .writeAccess => false
  | .receiveByte => false
  | .execute _ => false
  | .endAccess => false
  | .readAccess => false
  | .streamByte => false
  | .composeByte _ => false
  | .advance _ => false
  | .txEntry _ _ => false
  | .sendByte => false
  | .convertFlag _ _ => false
  | .convertMin _ _ => false
  | .convertMax _ _ _ => false
  | .convertFactor _ _ _ => false
  | .convertOut _ _ _ _ => false

/-- With `BACKEND = Controller` an idle block receives the address byte in the peripheral, on its own (R163, R168, log 31). -/
def State.autonomous (s : State) : Bool :=
  decide (s.cfg.backend = .controller) && decide (s.busState = .idle) && !s.main.changingOver

/-- The peripheral's shifter set to receive an address byte, as `RxByte` sets it (R157, R163). -/
def loadAddress (s : State) : State :=
  { s with stopF := false, sdaPull := false, bitcnt := 8, sclPull := false, xfer := .rxData (.addressMatch s.cfg.addrMask) }

/-- End the primitive in progress with `Aborted`, releasing the data line; with none in progress nothing happens (R157, R159). -/
def abortXfer (s : State) : State :=
  if s.xfer.active then { s with xfer := .finished .aborted, sdaPull := false } else s

/-- `DetectStart` (R154): a primitive of the main context ends `Aborted`; an idle controller begins the address byte anew (log 31). SR and
BITCNT keep what they hold at an abort (log 12). -/
def senseStart (s : State) : State :=
  if s.autonomous then loadAddress { s with startF := true } else abortXfer { s with startF := true }

/-- `DetectStop` (R155): a primitive of the main context ends `Aborted`; an idle controller drops the address byte and its start (log 31). -/
def senseStop (s : State) : State :=
  if s.autonomous then
    if s.xfer.active then { s with stopF := true, startF := false, xfer := .halted, sdaPull := false } else { s with stopF := true }
  else abortXfer { s with stopF := true }

/-- `SR <- {SR[6:0], bit}`. -/
def shiftIn (sr : Byte) (bit : Bool) : Byte := sr.extractLsb' 0 7 ++ BitVec.ofBool bit

/-- A condition sensed since the primitive began, or a start not consumed, aborts it (R157, R158). The start of an idle controller's
address byte does not: it is the one the byte belongs to. -/
def abortIfSensed (s : State) : State := if !s.autonomous && (s.startF || s.stopF) then abortXfer s else s

/-- Rising edge of the clock: a receiver samples a data bit or counts the acknowledgement slot, a sender samples the acknowledgement
(R153, R156 to R158).
DESIGN CHOICE (log 32): the ninth rising edge only samples the acknowledgement; `TxByte` ends at the falling edge after it, so a start or
stop sensed in the ninth high phase makes it `Aborted`. R158's pseudocode gives the result at the rising edge; its prose, R160 and R314
let a primitive last until its acknowledgement slot is complete. -/
def clockRise (s : State) : State :=
  match s.xfer with
  | .rxData _ =>
    if s.bitcnt = 0 then s
    else abortIfSensed { s with sr := shiftIn s.sr s.sda, bitcnt := s.bitcnt - 1 }
  | .rxAck => if s.bitcnt = 0 then s else { s with bitcnt := s.bitcnt - 1 }
  | .txData => s
  | .txAck => { s with bitcnt := 0, xfer := .txSampled (!s.sda) }
  | .txSampled _ => s
  | .halted => s
  | .finished _ => s

/-- Between primitives the block holds the clock low from the falling edge on when a start waits to be consumed or is just consumed, or when
an access goes on and the main context has not begun its next primitive (R160, D14, log 11). -/
def stretchDue (s : State) : Bool :=
  match s.xfer with
  | .halted => s.startF || decide (s.busState ≠ .idle) || s.main.changingOver
  | .finished .acked => true
  | .finished _ => s.startF
  | .rxData _ => false
  | .rxAck => false
  | .txData => false
  | .txAck => false
  | .txSampled _ => false

/-- Falling edge of the clock (R157, R158, R160). -/
def clockFall (s : State) : State :=
  match s.xfer with
  | .rxData ack =>
    if s.bitcnt = 0 then { s with sdaPull := ack.eval s.cfg s.sr, bitcnt := 1, xfer := .rxAck } else s
  | .rxAck =>
    -- the byte and its acknowledgement are complete; an acknowledged byte keeps the block in the access
    if s.bitcnt = 0 then
      -- an address that is not the block's sets no completion flag (R168)
      if s.autonomous && !s.sdaPull then { s with startF := false, xfer := .halted }
      else { s with sdaPull := false, sclPull := s.sdaPull, xfer := .finished (.byte s.sr) }
    else s
  | .txData =>
    if 1 < s.bitcnt.toNat then
      let sr := shiftIn s.sr false
      abortIfSensed { s with sr := sr, bitcnt := s.bitcnt - 1, sdaPull := !sr.getLsbD 7 }
    else { s with sdaPull := false, bitcnt := 1, xfer := .txAck }
  | .txAck => s
  | .txSampled acked => { s with sclPull := acked, xfer := .finished (if acked then .acked else .nacked) }
  | .halted => if stretchDue s then { s with sclPull := true } else s
  | .finished _ => if stretchDue s then { s with sclPull := true } else s

/-- React to the change of the lines from the levels `sda0`, `scl0` to those of `s` (R152, R153). -/
def lineEdges (sda0 scl0 : Bool) (s : State) : State :=
  if scl0 && s.scl then
    if sda0 && !s.sda then senseStart s
    else if !sda0 && s.sda then senseStop s
    else s
  else if !scl0 && s.scl then clockRise s
  else if scl0 && !s.scl then clockFall s
  else s

/-- Change who pulls the lines, and react to the edges this makes. -/
def drivingLines (change : State → State) (s : State) : State := lineEdges s.sda s.scl (change s)

/-- The peer pulls or releases the data line. -/
def setPeerSda (pull : Bool) (s : State) : State := drivingLines (fun s1 => { s1 with peerSda := pull }) s

/-- The peer pulls or releases the clock line. -/
def setPeerScl (pull : Bool) (s : State) : State := drivingLines (fun s1 => { s1 with peerScl := pull }) s

/-- `STOP_F <- 0` (R157, R158). -/
def clearStop (s : State) : State := { s with stopF := false }

/-- `SR <- b` (R158). -/
def loadByte (b : Byte) (s : State) : State := { s with sr := b }

/-- `BITCNT <- 8` (R156 to R158). -/
def loadCount (s : State) : State := { s with bitcnt := 8 }

/-- The main context writes `SDA_PULL` (R157, R158, R186). -/
def setData (pull : Bool) (s : State) : State := drivingLines (fun s1 => { s1 with sdaPull := pull }) s

/-- `SCL_PULL <- 0`, with which the primitive `x` is in progress (R157, R158, R186). -/
def releaseClock (x : Xfer) (s : State) : State := drivingLines (fun s1 => { s1 with sclPull := false, xfer := x }) s

/-- A controller that has become idle with a start latched goes on to that start's address byte (R168, log 31). -/
def listen (s : State) : State :=
  if s.autonomous && s.startF && decide (s.xfer = .halted) then drivingLines loadAddress s else s

end Sys2Proof.Machine
end

