-- ==== Sys2Proof/Machine/Peer.lean ====
section
/-! DEFINITION. The bus peer's byte-level moves (R10, R187), each made of the line-level moves a master makes for it. -/

namespace Sys2Proof.Machine

/-- One clock pulse: the master sets the data line while the clock is low, lets the clock rise, samples the data line, pulls the clock
low again (R153). -/
def peerPulse (bit : Bool) (s : State) : Bool × State :=
  let s1 := setPeerScl false (setPeerSda (!bit) (setPeerScl true s))
  (s1.sda, setPeerScl true s1)

/-- `S` or `Sr`: data falls while the clock is high, then the clock falls (R152). -/
def peerStart (s : State) : State :=
  if !s.peerScl && !s.peerSda then setPeerScl true (setPeerSda true s)
  else setPeerScl true (setPeerSda true (setPeerScl false (setPeerSda false (setPeerScl true s))))

/-- `P`: data rises while the clock is high (R152). -/
def peerStop (s : State) : State := setPeerSda false (setPeerScl false (setPeerSda true (setPeerScl true s)))

/-- The bits of a byte, most significant first (R69). -/
def msbFirst (b : Byte) : List Bool :=
  [b.getLsbD 7, b.getLsbD 6, b.getLsbD 5, b.getLsbD 4, b.getLsbD 3, b.getLsbD 2, b.getLsbD 1, b.getLsbD 0]

/-- `W(b)` from its bit on that is first in the list: these bits, then the acknowledgement slot; a low line is an ACK (R98, R187). A master honours a
stretch that begins in the middle (R160, R364): before a pulse on a held clock it stops, and the second part is what is left. -/
def peerWrite : List Bool → State → State × Option Move
  | [], s =>
    if s.sclPull then (s, some (.wrest []))
    else
      let r := peerPulse true s
      ({ r.2 with hostSaw := some (.ack (!r.1)) }, none)
  | b :: bs, s => if s.sclPull then (s, some (.wrest (b :: bs))) else peerWrite bs (peerPulse b s).2

/-- `R` with `left` data bits to come after those in `acc`: the bits from the line, first bit most significant, then the host's acknowledgement, then
the data line is released (R187). A stretch in the middle as in `peerWrite`. -/
def peerRead : Nat → Byte → Bool → State → State × Option Move
  | 0, acc, ack, s =>
    if s.sclPull then (s, some (.rrest 0 acc ack))
    else
      let s1 := setPeerSda false (peerPulse (!ack) s).2
      ({ s1 with hostSaw := some (.byte acc) }, none)
  | left + 1, acc, ack, s =>
    if s.sclPull then (s, some (.rrest (left + 1) acc ack))
    else
      let r := peerPulse true s
      peerRead left (shiftIn acc r.1) ack r.2

end Sys2Proof.Machine
end

