-- ==== Sys2Proof/Machine/Agents.lean ====
section
/-! DEFINITION. The step of each agent other than the main context (R10), which moves come after a due compare event (R122), which moves have to wait, and the accesses to the trim store. -/

namespace Sys2Proof.Machine

/-- The effect of a move of an agent other than the main context. -/
def agentMove (m : Move) (s : State) : State :=
  match m with
  | .tick => tick s
  | .cmp level => setCmp level s
  | .evD => evD s
  | .btn pins => setButtons pins s
  | .peerSda pull => setPeerSda pull s
  | .peerScl pull => setPeerScl pull s
  | .start => { peerStart s with hostSaw := none }
  | .stop => { peerStop s with hostSaw := none }
  | .wbyte b => (peerWrite (msbFirst b) s).1
  | .rbyte ack => (peerRead 8 0 ack s).1
  | .wrest bits => (peerWrite bits s).1
  | .rrest left acc ack => (peerRead left acc ack s).1
  | .retire => retire s
  | .dispatch => s
  | .convert => s

/-- What a move leaves of a host's byte that the block stretches in the middle (R160, log 15). -/
def moveRest (m : Move) (s : State) : Option Move :=
  match m with
  | .wbyte b => (peerWrite (msbFirst b) s).2
  | .rbyte ack => (peerRead 8 0 ack s).2
  | .wrest bits => (peerWrite bits s).2
  | .rrest left acc ack => (peerRead left acc ack s).2
  | .tick => none
  | .cmp _ => none
  | .evD => none
  | .btn _ => none
  | .peerSda _ => none
  | .peerScl _ => none
  | .start => none
  | .stop => none
  | .retire => none
  | .dispatch => none
  | .convert => none

/-- Moves that come after a compare event that is due: a further tick, a trip of the same tick (R122), the lower level's tick (R313). -/
def afterCompare : Move → Bool
  | .tick => true
  | .cmp _ => true
  | .evD => true
  | .btn _ => false
  | .peerSda _ => false
  | .peerScl _ => false
  | .start => false
  | .stop => false
  | .wbyte _ => false
  | .rbyte _ => false
  | .wrest _ => false
  | .rrest _ _ _ => false
  | .retire => false
  | .dispatch => false
  | .convert => false

/-- The compare event comes first. -/
def compareFirst (m : Move) (s : State) : Bool := afterCompare m && s.ie && compareDue s

/-- The move must wait for the main context or the store: a master honours a stretched clock (R364, D40); inside a critical block neither a tick nor
a debounce period elapses, and a trip of a tick whose event is held waits with it (R72, R312). -/
def mustWait (m : Move) (s : State) : Bool :=
  match m with
  | .tick => !s.ie
  | .cmp _ => !s.ie && compareDue s
  | .evD => !s.ie
  | .btn _ => false
  | .peerSda _ => s.sclPull && !s.peerScl
  | .peerScl _ => s.sclPull && !s.peerScl
  | .start => s.sclPull
  | .stop => s.sclPull
  | .wbyte _ => s.sclPull
  | .rbyte _ => s.sclPull
  | .wrest _ => s.sclPull
  | .rrest _ _ _ => s.sclPull
  | .retire => false
  | .dispatch => false
  | .convert => false

/-- A byte-level action begins with the clock low: the master pulls it first if it had let it go. A start on released lines does not. -/
def lowersClock (m : Move) (s : State) : Bool :=
  !s.peerScl &&
    match m with
    | .start => s.peerSda
    | .stop => true
    | .wbyte _ => true
    | .rbyte _ => true
    | .wrest _ => true
    | .rrest _ _ _ => true
    | .tick => false
    | .cmp _ => false
    | .evD => false
    | .btn _ => false
    | .peerSda _ => false
    | .peerScl _ => false
    | .retire => false
    | .dispatch => false
    | .convert => false

/-- The move is the main context's own. -/
def mainsMove : Move → Bool
  | .tick => false
  | .cmp _ => false
  | .evD => false
  | .btn _ => false
  | .peerSda _ => false
  | .peerScl _ => false
  | .start => false
  | .stop => false
  | .wbyte _ => false
  | .rbyte _ => false
  | .wrest _ => false
  | .rrest _ _ _ => false
  | .retire => false
  | .dispatch => true
  | .convert => true

/-- `NvRead8` of the byte at `NV_BASE + k`; nothing while it has to wait for `NV_BUSY = 0`, interrupts staying enabled (R64, R66). -/
def nvRead8 (k : Fin 24) (s : State) : Option Byte := if s.nvBusy then none else some (s.nvByte k)

/-- `NvRead16` of a word, one byte a step, the low byte first: the word once its high byte is read; nothing while it has to wait (R10, R64,
R66). -/
def nvRead16 (w : Fin 12) (s : State) : Option Word × State :=
  match s.lowByte with
  | none =>
    match nvRead8 (wordLo w) s with
    | none => (none, s)
    | some lo => (none, { s with lowByte := some lo })
  | some lo =>
    match nvRead8 (wordHi w) s with
    | none => (none, s)
    | some hi => (some (Word.ofBytes lo hi), { s with lowByte := none })

/-- `NvWrite16` of a word; nothing while it has to wait (R64, R66). -/
def nvWrite16 (w : Fin 12) (v : Word) (s : State) : Option State := if s.nvBusy then none else some (nvCommit w v s)

end Sys2Proof.Machine
end

