-- ==== Sys2Proof/Machine/Protocol.lean ====
section
/-! DEFINITION. BUS protocol layer, slave role (42_bus_protocol.md): the three operations of the slave API write by write, the end of an access, and the status classes of the controller backend (R168). -/

namespace Sys2Proof.Machine

/-- The status classes of the dedicated bus controller: the five of the source and the two a slave receiver needs (R168, D32). -/
inductive ControllerStatus where
  | addressWrite
  | addressRead
  | dataSentAcked
  | dataSentNacked
  | arbitrationOther
  | dataReceived
  | stopOrRestart
deriving DecidableEq, Repr

/-- The result each status class maps to, `b` being the byte in the shift register (R168). -/
def ControllerStatus.result (b : Byte) : ControllerStatus → Status
  | .addressWrite => .matched (addrField b) false
  | .addressRead => .matched (addrField b) true
  | .dataSentAcked => .acked
  | .dataSentNacked => .nacked
  | .arbitrationOther => .aborted
  | .dataReceived => .byte b
  | .stopOrRestart => .aborted

/-- The completion the controller reports for an address byte: none when the address does not match (R168). -/
def controllerAddress (p : Params) (mask : BitVec 7) (b : Byte) : Option ControllerStatus :=
  if addressMatches p mask (addrField b) then some (if rwField b then .addressRead else .addressWrite) else none

/-- The status class the controller reports when a byte primitive ends. -/
def controllerData : Status → ControllerStatus
  | .acked => .dataSentAcked
  | .nacked => .dataSentNacked
  | .aborted => .stopOrRestart
  | .byte _ => .dataReceived
  | .noMatch => .arbitrationOther
  | .matched _ _ => .arbitrationOther

/-- What the driver of the backend in use returns for the end of `receive_byte` or `send_byte` (R161 to R163, R168). -/
def driverResult (s : State) (r : Status) : Status :=
  match s.cfg.backend with
  | .controller => (controllerData r).result s.sr
  | .shiftRegister => r
  | .softwareBitbang => r

/-- What the driver returns for a complete address byte (R168, R182, R183). -/
def addressResult (p : Params) (mask : BitVec 7) (b : Byte) : Status :=
  match p.backend with
  | .controller =>
    match controllerAddress p mask b with
    | some st => st.result b
    | none => .noMatch
  | .shiftRegister => if addressMatches p mask (addrField b) then .matched (addrField b) (rwField b) else .noMatch
  | .softwareBitbang => if addressMatches p mask (addrField b) then .matched (addrField b) (rwField b) else .noMatch

/-- The address byte the peripheral has completed, and so matched, for an idle controller: its completion flag (R163, R168). -/
def addressCompleted (s : State) : Bool :=
  s.autonomous &&
    match s.xfer with
    | .finished (.byte _) => true
    | .finished _ => false
    | .halted => false
    | .rxData _ => false
    | .rxAck => false
    | .txData => false
    | .txAck => false
    | .txSampled _ => false

/-- The poll of `await_address`: with no start pending, or on the controller no completion, it returns at once and changes nothing (R182,
R168, C10). -/
def awaitAddress (s : State) : State :=
  if s.busState ≠ .idle then s
  else
    match s.cfg.backend with
    | .controller => if addressCompleted s then { s with main := .startSeen } else s
    | .shiftRegister => if s.startF then { s with main := .startSeen } else s
    | .softwareBitbang => s

/-- `BUS_STATE <- AddressPhase`; `RxByte` comes next, which the controller's peripheral has completed already (R182, R163, R168). -/
def enterAddressPhase (s : State) : State :=
  match s.cfg.backend with
  | .controller => { s with busState := .addressPhase, main := .awaitAddress }
  | .shiftRegister => { s with busState := .addressPhase, main := .rxEntry .clearStop .address }
  | .softwareBitbang => { s with busState := .addressPhase, main := .rxEntry .clearStop .address }

/-- The rest of `await_address` once the address byte `b` is complete, its next write: on a match `MATCHED`, `DIR`, `BUS_STATE` in turn, else
`BUS_STATE` alone (R182, R183). A step of a command is not its own: it goes to `Idle` (log 24). -/
def finishAddress (mask : BitVec 7) (b : Byte) (s : State) : State :=
  let giveUp : State := { s with busState := .idle, progress := .fresh }
  match s.progress with
  | .fresh =>
    match addressResult s.cfg mask b with
    | .matched a _ => { s with matched := a, progress := .addressDir }
    | .noMatch => giveUp
    | .byte _ => giveUp
    | .acked => giveUp
    | .nacked => giveUp
    | .aborted => giveUp
  | .addressDir => { s with dir := rwField b, progress := .addressState }
  | .addressState => { s with busState := if rwField b then .readTransfer else .writeTransfer, progress := .fresh }
  | .cornerFirst _ _ => giveUp
  | .cornerSecond _ => giveUp
  | .recomputeMin _ => giveUp
  | .recomputeMax _ _ => giveUp
  | .recomputeFactor _ _ _ => giveUp
  | .recomputeWrite _ _ => giveUp

/-- A primitive ended without success: back to `Idle` and to the main loop (R182, R184, R185, R190). -/
def leaveAccess (s : State) : State := listen { s with busState := .idle, xfer := .halted, main := .loop }

/-- `end_access()`, its first write (R186). -/
def endAccess (s : State) : State := { s with busState := .idle, main := .endData }

/-- `end_access()`, the data line (R186). -/
def endData (s : State) : State := { setData false s with main := .endClock }

/-- `end_access()`, the clock, after which the access is over (R186). -/
def endClock (s : State) : State := listen { releaseClock s.xfer s with main := .loop }

end Sys2Proof.Machine
end

