-- ==== Sys2Proof/Machine/Address.lean ====
section
/-! DEFINITION. The meaning of the address byte, `ADDR` (R182, R183). -/

namespace Sys2Proof.Machine

/-- `ADDR`: the address byte `{a, r}` is complete; on a match the access begins, else the block returns to `Idle` (R182, R183). A sequence of atomic
steps: the meaning takes the one that `progress` names, and the byte is done with when `progress` is `fresh` again (R10). Its
acknowledgement was driven by `RxByte` from the same predicate (R157). The bit-bang backend has no slave role and is refused (R164). -/
def execAddr (a : BitVec 7) (r : Bool) (s : State) : Host.Outcome State Fault Refusal :=
  if s.cfg.servesSlave then .next (finishAddress s.cfg.addrMask (a ++ BitVec.ofBool r) s)
  else .refused .softwareBitbangSlave

end Sys2Proof.Machine
end

