-- ==== Sys2Proof/Machine/Calibrate.lean ====
section
/-! DEFINITION. The calibration steps (45_convert_calibrate.md, section 2). -/

namespace Sys2Proof.Machine

/-- `ScaleFactor(mn, mx)`; nothing when max is below min, where the spec states no result (R274). -/
def scaleFactorValue (mn mx : Word) : Option Word :=
  if mx.toNat < mn.toNat then none
  else some (BitVec.ofInt 16
    (Int.tdiv (((mx.toNat : Int) - (mn.toNat : Int)) * scaleMul) (desiredMaxReading - desiredMinReading + 1)))

/-- The word `ScaleFactor` returns; a free value when max is below min (R274). -/
def scaleFactor (mn mx : Word) (s : State) : Word × State :=
  match scaleFactorValue mn mx with
  | some w => (w, s)
  | none => drawFactor s

/-- Both raw samples of a joystick, read in one critical section (R275). -/
def readPair (j : Joystick) (s : State) : (Word × Word) × State :=
  critical (fun s1 => ((s1.rawAt (joystickX j), s1.rawAt (joystickY j)), s1)) s

/-- `CornerSet(j, field)`, its next atomic step: both samples at one instant, then two unconditional writes, each after the one before it has
retired (R275, R64). A step of another meaning is not its own: it gives up (log 24). -/
def cornerSet (j : Joystick) (f : TrimField) (s : State) : State :=
  match s.progress with
  | .fresh =>
    let xy := readPair j s
    { xy.2 with progress := .cornerFirst xy.1.1 xy.1.2 }
  | .cornerFirst x y =>
    match nvWrite16 (trimWord (joystickX j) f) x s with
    | none => s
    | some t => { t with progress := .cornerSecond y }
  | .cornerSecond y =>
    match nvWrite16 (trimWord (joystickY j) f) y s with
    | none => s
    | some t => { t with progress := .fresh }
  | .addressDir => { s with progress := .fresh }
  | .addressState => { s with progress := .fresh }
  | .recomputeMin _ => { s with progress := .fresh }
  | .recomputeMax _ _ => { s with progress := .fresh }
  | .recomputeFactor _ _ _ => { s with progress := .fresh }
  | .recomputeWrite _ _ => { s with progress := .fresh }

/-- `Recompute(j)` after a channel is done: the Y channel after the X channel, then the end (R276). -/
def recomputeNext (j : Joystick) (ch : Chan) : Progress :=
  if ch = joystickX j then .recomputeMin (joystickY j) else .fresh

/-- `Recompute(j)`, its next atomic step: for each channel the stored minimum, maximum and factor are read, and the new factor is written
only if it differs from the stored one; a stored word is read one byte a step (R276, R10). A step of another meaning is not its own: it gives up
(log 24). -/
def recompute (j : Joystick) (s : State) : State :=
  match s.progress with
  | .fresh => { s with progress := .recomputeMin (joystickX j) }
  | .recomputeMin ch =>
    match nvRead16 (trimWord ch .min) s with
    | (none, t) => t
    | (some mn, t) => { t with progress := .recomputeMax ch mn }
  | .recomputeMax ch mn =>
    match nvRead16 (trimWord ch .max) s with
    | (none, t) => t
    | (some mx, t) => { t with progress := .recomputeFactor ch mn mx }
  | .recomputeFactor ch mn mx =>
    match nvRead16 (trimWord ch .factor) s with
    | (none, t) => t
    | (some old, t) =>
      let new := scaleFactor mn mx t
      { new.2 with progress := if new.1 = old then recomputeNext j ch else .recomputeWrite ch new.1 }
  | .recomputeWrite ch new =>
    match nvWrite16 (trimWord ch .factor) new s with
    | none => s
    | some t => { t with progress := recomputeNext j ch }
  | .addressDir => { s with progress := .fresh }
  | .addressState => { s with progress := .fresh }
  | .cornerFirst _ _ => { s with progress := .fresh }
  | .cornerSecond _ => { s with progress := .fresh }

end Sys2Proof.Machine
end

