-- ==== Sys2Proof/Machine/CalibrationCommands.lean ====
section
/-! DEFINITION. The meanings of the calibration commands 32 to 37 (R223 to R228). They leave `MODE` unchanged (C3). Each is a sequence of atomic
steps (R10): a meaning takes the step that `progress` names, and the command is over when `progress` is `fresh` again. -/

namespace Sys2Proof.Machine

/-- `CAL_A1`: `CornerSet(0, MIN)` (R223). -/
def execCalA1 (s : State) : Host.Outcome State Fault Refusal := .next (cornerSet 0 .min s)

/-- `CAL_B1`: `CornerSet(0, MAX)` (R224). -/
def execCalB1 (s : State) : Host.Outcome State Fault Refusal := .next (cornerSet 0 .max s)

/-- `CAL_F1`: `Recompute(0)` (R225). -/
def execCalF1 (s : State) : Host.Outcome State Fault Refusal := .next (recompute 0 s)

/-- `CAL_A2`: `CornerSet(1, MIN)` (R226). -/
def execCalA2 (s : State) : Host.Outcome State Fault Refusal := .next (cornerSet 1 .min s)

/-- `CAL_B2`: `CornerSet(1, MAX)` (R227). -/
def execCalB2 (s : State) : Host.Outcome State Fault Refusal := .next (cornerSet 1 .max s)

/-- `CAL_F2`: `Recompute(1)` (R228). -/
def execCalF2 (s : State) : Host.Outcome State Fault Refusal := .next (recompute 1 s)

end Sys2Proof.Machine
end

