-- ==== Sys2Proof/Machine/Streams.lean ====
section
/-! DEFINITION. What a read access returns: the stream views of the storage spaces (R60, R213 to R216). -/

namespace Sys2Proof.Machine

/-- `MemRead(OUTMEM, i, 1)`: `OUT[i]`, and the buttons byte at index 4; no other index exists (R62). -/
def outmemRead (s : State) (i : Nat) : Option Fetched :=
  if h : i < 4 then some (.byte (s.outAt ⟨i, h⟩)) else if i = 4 then some (.debounced (readDeb s)) else none

/-- The half of a raw sample that stream index `k` names: low at even, high at odd (R67). -/
def rawHalf (k : Nat) (w : Word) : Byte := if k % 2 = 0 then w.lo else w.hi

/-- `RawByte(k)` for a sample index that exists, up to its critical section: with the snapshot the byte is then read from `SNAP` (R215). -/
def rawByte (k : Nat) (ch : Chan) (s : State) : Fetched × State :=
  if s.cfg.rawStreamSnapshot then
    (.snapshot, if k % 2 = 0 then (critical (fun s2 => ((), { s2 with snap := s2.rawAt ch })) s).2 else s)
  else
    let r := critical (fun s2 => (s2.rawAt ch, s2)) s
    (.byte (rawHalf k r.1), r.2)

/-- `StreamByte` has to wait: its `NvRead8` finds a write in flight (R64, R230). -/
def streamWaits (s : State) : Bool := decide (sourceOf s.mode = .trimTable) && (nvRead8 s.cursor s).isNone

/-- `StreamByte`, its first atomic step: the read of the selected source at the cursor; for the trim table the byte its `NvRead8` returns once
it need not wait (R213, R214). -/
def fetchByte (s : State) : Except Fault (Fetched × State) :=
  match sourceOf s.mode with
  | .all =>
    match outmemRead s s.cursor.val with
    | some f => .ok (f, s)
    | none => .error .outmemIndexAbsent
  | .channel ch => .ok (.byte (s.outAt ch), s)
  | .buttons => .ok (.debounced (readDeb s), s)
  | .rawSamples =>
    if h : s.cursor.val < 8 then .ok (rawByte s.cursor.val ⟨s.cursor.val / 2, by omega⟩ s)
    else .error .rawStreamIndexAbsent
  | .trimTable => .ok (.byte (s.nvByte s.cursor), s)
  | .nothing =>
    let r := drawByte s
    .ok (.byte r.1, r.2)

/-- `StreamByte`, its second step: the byte put together, reading `INVALID` or `SNAP` if it needs them (R215, R216). -/
def composeByte (f : Fetched) (s : State) : Byte :=
  match f with
  | .byte b => b
  | .debounced d => packButtons s.invalid d
  | .snapshot => rawHalf s.cursor.val s.snap

/-- `StreamByte`, its last step: the cursor goes on (R213). -/
def advance (s : State) : State := { s with cursor := advanceCursor (sourceOf s.mode).len s.cursor }

end Sys2Proof.Machine
end

