-- ==== Sys2Proof/Machine/Selectors.lean ====
section
/-! DEFINITION. The meanings of the read selectors: commands 0 to 5, 128, 129, and every value that names no command (R217 to R222, R229 to R231). The stream each selects is `streamByte`. -/

namespace Sys2Proof.Machine

/-- Store a command byte as the read selector (R79, R217). -/
def selectMode (c : Byte) (s : State) : State := { s with mode := some c }

/-- `RD_ALL`: `MODE <- Some(0)` (R217). -/
def execRdAll (s : State) : Host.Outcome State Fault Refusal := .next (selectMode 0#8 s)

/-- `RD_X1`: `MODE <- Some(1)` (R218). -/
def execRdX1 (s : State) : Host.Outcome State Fault Refusal := .next (selectMode 1#8 s)

/-- `RD_Y1`: `MODE <- Some(2)` (R219). -/
def execRdY1 (s : State) : Host.Outcome State Fault Refusal := .next (selectMode 2#8 s)

/-- `RD_X2`: `MODE <- Some(3)` (R220). -/
def execRdX2 (s : State) : Host.Outcome State Fault Refusal := .next (selectMode 3#8 s)

/-- `RD_Y2`: `MODE <- Some(4)` (R221). -/
def execRdY2 (s : State) : Host.Outcome State Fault Refusal := .next (selectMode 4#8 s)

/-- `RD_BTN`: `MODE <- Some(5)` (R222). -/
def execRdBtn (s : State) : Host.Outcome State Fault Refusal := .next (selectMode 5#8 s)

/-- `RD_RAW`: `MODE <- Some(128)` (R229). -/
def execRdRaw (s : State) : Host.Outcome State Fault Refusal := .next (selectMode 128#8 s)

/-- `RD_TRIM`: `MODE <- Some(129)` (R230). -/
def execRdTrim (s : State) : Host.Outcome State Fault Refusal := .next (selectMode 129#8 s)

/-- `OPAQUE`: the value is stored verbatim (R231). -/
def execOpaqueMode (c : Byte) (s : State) : Host.Outcome State Fault Refusal := .next (selectMode c s)

end Sys2Proof.Machine
end

