-- ==== Sys2Proof/Machine/Dispatch.lean ====
section
/-! DEFINITION. `exec`: one arm per constructor of `Instr`, each a direct call of its meaning. -/

namespace Sys2Proof.Machine

def exec (i : Instr) (s : State) : Host.Outcome State Fault Refusal :=
  match i with
  | .addr a r => Sys2Proof.Machine.execAddr a r s
  | .rdAll => Sys2Proof.Machine.execRdAll s
  | .rdX1 => Sys2Proof.Machine.execRdX1 s
  | .rdY1 => Sys2Proof.Machine.execRdY1 s
  | .rdX2 => Sys2Proof.Machine.execRdX2 s
  | .rdY2 => Sys2Proof.Machine.execRdY2 s
  | .rdBtn => Sys2Proof.Machine.execRdBtn s
  | .calA1 => Sys2Proof.Machine.execCalA1 s
  | .calB1 => Sys2Proof.Machine.execCalB1 s
  | .calF1 => Sys2Proof.Machine.execCalF1 s
  | .calA2 => Sys2Proof.Machine.execCalA2 s
  | .calB2 => Sys2Proof.Machine.execCalB2 s
  | .calF2 => Sys2Proof.Machine.execCalF2 s
  | .rdRaw => Sys2Proof.Machine.execRdRaw s
  | .rdTrim => Sys2Proof.Machine.execRdTrim s
  | .opaqueMode c => Sys2Proof.Machine.execOpaqueMode c s

end Sys2Proof.Machine
end

