-- ==== Sys2Proof/Machine/Convert.lean ====
section
/-! DEFINITION. The converter (45_convert_calibrate.md, section 1): the conversion formula and the atomic steps of the main-loop operation `CONVERT`. -/

namespace Sys2Proof.Machine

/-- `clamp(v, lo, hi)` (R9). -/
def clampInt (v lo hi : Int) : Int := if v < lo then lo else if hi < v then hi else v

/-- `Convert(raw, mn, f)`; nothing when the factor is 0, where the spec states no result (R268, R269, R270). The 32-bit arithmetic of the rule
cannot overflow, so it is exact integer arithmetic, the division truncating toward zero. -/
def convertValue (p : Params) (raw mn f : Word) : Option Byte :=
  if f = 0 then none
  else
    let d : Int := (raw.toNat : Int) - (if p.convertSubtractMin then (mn.toNat : Int) else 0)
    let q : Int := Int.tdiv (d * scaleMul) (f.toNat : Int)
    some (BitVec.ofInt 8 (clampInt (q + desiredMinReading) absoluteMinReading absoluteMaxReading))

/-- The byte `Convert` returns; a free value when the factor is 0 (R270). -/
def convertByte (raw mn f : Word) (s : State) : Byte × State :=
  match convertValue s.cfg raw mn f with
  | some b => (b, s)
  | none => drawOutput s

/-- Take the fresh sample, if there is one: flag, channel and sample in one critical section (R266). -/
def takeSample (s : State) : Option (Chan × Word) × State :=
  critical (fun s1 =>
    if s1.updated then (some (s1.ready, s1.rawAt s1.ready), { s1 with updated := false }) else (none, s1)) s

/-- `CONVERT`, its first atomic step: with nothing fresh it is over (R266). -/
def convertTake (s : State) : State :=
  match takeSample s with
  | (none, s1) => s1
  | (some (ch, r), s1) => { s1 with main := .convertFlag ch r }

/-- `CONVERT`, the invalid flag: an invalid sample leaves the output as it is and ends the conversion (R266, R267). -/
def convertFlag (ch : Chan) (r : Word) (s : State) : State :=
  if sampleInvalid s.cfg r then { s with invalid := setBit4 s.invalid ch true, main := .loop }
  else { s with invalid := setBit4 s.invalid ch false, main := .convertMin ch r }

/-- `CONVERT`, the stored minimum, one byte a step (R266, R78). -/
def convertMin (ch : Chan) (r : Word) (s : State) : State :=
  match nvRead16 (trimWord ch .min) s with
  | (none, t) => t
  | (some mn, t) => { t with main := .convertMax ch r mn }

/-- `CONVERT`, the stored maximum, one byte a step: the third field R78 says `CONVERT` reads; no formula uses it (R268 corner case c).
DESIGN CHOICE (log 33), safe: R266's pseudocode does not show this read; it stands in the order of the record (R63). -/
def convertMax (ch : Chan) (r mn : Word) (s : State) : State :=
  match nvRead16 (trimWord ch .max) s with
  | (none, t) => t
  | (some _, t) => { t with main := .convertFactor ch r mn }

/-- `CONVERT`, the stored factor, one byte a step (R266, R78). -/
def convertFactor (ch : Chan) (r mn : Word) (s : State) : State :=
  match nvRead16 (trimWord ch .factor) s with
  | (none, t) => t
  | (some f, t) => { t with main := .convertOut ch r mn f }

/-- `CONVERT`, the output byte (R266, R268). -/
def convertOut (ch : Chan) (r mn f : Word) (s : State) : State :=
  let o := convertByte r mn f s
  { o.2 with out := o.2.out.set ch o.1, main := .loop }

end Sys2Proof.Machine
end

