-- ==== Sys2Proof/Machine/MainContext.lean ====
section
/-! DEFINITION. The main context's next atomic step (R210 to R212, R343) and the choice of the agent that moves, both over the meaning of a decoded byte, which `Machine/Step.lean` supplies. -/

namespace Sys2Proof.Machine

/-- The meaning of a decoded byte. -/
abbrev Meaning := Instr → State → Host.Outcome State Fault Refusal

/-- What the main context does with the state a meaning leaves, if it leaves one. -/
def thenNext (o : Host.Outcome State Fault Refusal) (f : State → State) : Host.Outcome State Fault Refusal :=
  match o with
  | .next s => .next (f s)
  | .fault r => .fault r
  | .refused r => .refused r

/-- The end of `await_address`: to the main loop on `NoMatch`, else into the access its direction names (R210). -/
def enterAccess (s : State) : State :=
  if s.busState = .idle then listen { s with xfer := .halted, main := .loop }
  else if s.dir then { s with xfer := .halted, main := .readAccess }
  else { s with xfer := .halted, main := .writeAccess }

/-- After a step of the meaning of an address byte: its writes go on, or `await_address` is over (R182). -/
def afterAddress (s : State) : State :=
  match s.progress with
  | .fresh => enterAccess s
  | .addressDir => s
  | .addressState => s
  | .cornerFirst _ _ => s
  | .cornerSecond _ => s
  | .recomputeMin _ => s
  | .recomputeMax _ _ => s
  | .recomputeFactor _ _ _ => s
  | .recomputeWrite _ _ => s

/-- After an atomic step of `Execute(c)`: the command goes on, or it is over and `end_access()` comes next (R211). -/
def afterExecute (s : State) : State :=
  match s.progress with
  | .fresh => { s with main := .endAccess }
  | .addressDir => s
  | .addressState => s
  | .cornerFirst _ _ => s
  | .cornerSecond _ => s
  | .recomputeMin _ => s
  | .recomputeMax _ _ => s
  | .recomputeFactor _ _ _ => s
  | .recomputeWrite _ _ => s

/-- The instruction a complete address byte is. -/
def addressInstr (b : Byte) : Instr := decodeAddress b

/-- The instruction a delivered command byte is. -/
def commandInstr (c : Byte) : Instr := decodeCommand c

/-- `await_address` waits for the address byte, then goes on (R182). -/
def awaitStep (run : Meaning) (s : State) : Host.Outcome State Fault Refusal :=
  match s.xfer with
  | .finished (.byte b) => thenNext (run (addressInstr b) s) afterAddress
  | .finished _ => .next (leaveAccess s)
  | .halted => .next s
  | .rxData _ => .next s
  | .rxAck => .next s
  | .txData => .next s
  | .txAck => .next s
  | .txSampled _ => .next s

/-- The `ack` operand of `RxByte` (R182, R184). -/
def RxUse.ack (p : Params) : RxUse → AckPolicy
  | .address => .addressMatch p.addrMask
  | .command => .const true

/-- Where the main context waits for the end of `RxByte`. -/
def RxUse.waiting : RxUse → MainPoint
  | .address => .awaitAddress
  | .command => .receiveByte

/-- The next write of the entry of `RxByte` (R157). -/
def rxStep (e : RxEntry) (u : RxUse) (s : State) : State :=
  match e with
  | .clearStop => { clearStop s with main := .rxEntry .releaseData u }
  | .releaseData => { setData false s with main := .rxEntry .loadCount u }
  | .loadCount => { loadCount s with main := .rxEntry .releaseClock u }
  | .releaseClock => { releaseClock (.rxData (u.ack s.cfg)) s with main := u.waiting }

/-- The next write of the entry of `TxByte(b)`; the first bit is set while the clock is low (R158, log 13). -/
def txStep (e : TxEntry) (b : Byte) (s : State) : State :=
  match e with
  | .clearStop => { clearStop s with main := .txEntry .loadByte b }
  | .loadByte => { Machine.loadByte b s with main := .txEntry .loadCount b }
  | .loadCount => { Machine.loadCount s with main := .txEntry .setBit b }
  | .setBit => if s.scl then s else { setData (!s.sr.getLsbD 7) s with main := .txEntry .releaseClock b }
  | .releaseClock => { Machine.releaseClock .txData s with main := .sendByte }

/-- `receive_byte` begins, in `WriteTransfer` only (R184). -/
def receiveBegin (s : State) : State :=
  if s.busState = .writeTransfer then { s with main := .rxEntry .clearStop .command } else s

/-- `receive_byte` waits for the command byte; an aborted byte executes nothing (R184, R211). -/
def receiveStep (s : State) : State :=
  match s.xfer with
  | .finished r =>
    match driverResult s r with
    | .byte c => { s with xfer := .halted, main := .execute c }
    | .aborted => leaveAccess s
    | .noMatch => leaveAccess s
    | .matched _ _ => leaveAccess s
    | .acked => leaveAccess s
    | .nacked => leaveAccess s
  | .halted => s
  | .rxData _ => s
  | .rxAck => s
  | .txData => s
  | .txAck => s
  | .txSampled _ => s

/-- `send_byte` waits for the host's answer; the stream goes on after an ACK only (R185, R212). -/
def sendStep (s : State) : State :=
  match s.xfer with
  | .finished r =>
    match driverResult s r with
    | .acked => { s with xfer := .halted, main := .streamByte }
    | .nacked => leaveAccess s
    | .aborted => leaveAccess s
    | .noMatch => leaveAccess s
    | .matched _ _ => leaveAccess s
    | .byte _ => leaveAccess s
  | .halted => s
  | .rxData _ => s
  | .rxAck => s
  | .txData => s
  | .txAck => s
  | .txSampled _ => s

/-- Fetch the next byte of the stream, in `ReadTransfer` only, once the trim store can be read if it is the source (R185, R212, R230). -/
def fetchStep (s : State) : Host.Outcome State Fault Refusal :=
  if s.busState ≠ .readTransfer || streamWaits s then .next s
  else
    match fetchByte s with
    | .ok (f, s1) => .next { s1 with main := .composeByte f }
    | .error e => .fault e

/-- The main context's next atomic step (R10, R210 to R212, R266, R343). Waiting for the peer or for the store it changes nothing (R189,
R64). -/
def mainStep (run : Meaning) (choice : LoopChoice) (s : State) : Host.Outcome State Fault Refusal :=
  match s.main with
  | .loop =>
    match choice with
    | .dispatch => .next (awaitAddress s)
    | .convert => .next (convertTake s)
  | .startSeen => .next { s with startF := false, main := .startTaken }
  | .startTaken => .next (enterAddressPhase s)
  | .rxEntry e u => .next (rxStep e u s)
  | .awaitAddress => awaitStep run s
  | .writeAccess => .next (receiveBegin s)
  | .receiveByte => .next (receiveStep s)
  | .execute c => thenNext (run (commandInstr c) s) afterExecute
  | .endAccess => .next (endAccess s)
  | .endData => .next (endData s)
  | .endClock => .next (endClock s)
  | .readAccess => .next { s with cursor := 0, main := .streamByte }
  | .streamByte => fetchStep s
  | .composeByte f => .next { s with main := .advance (composeByte f s) }
  | .advance b => .next { advance s with main := .txEntry .clearStop b }
  | .txEntry e b => .next (txStep e b s)
  | .sendByte => .next (sendStep s)
  | .convertFlag ch r => .next (convertFlag ch r s)
  | .convertMin ch r => .next (convertMin ch r s)
  | .convertMax ch r mn => .next (convertMax ch r mn s)
  | .convertFactor ch r mn => .next (convertFactor ch r mn s)
  | .convertOut ch r mn f => .next (convertOut ch r mn f s)

/-- The command being executed accesses the store in its next atomic step (R275, R276). -/
def Progress.needsStore : Progress → Bool
  | .fresh => false
  | .addressDir => false
  | .addressState => false
  | .cornerFirst _ _ => true
  | .cornerSecond _ => true
  | .recomputeMin _ => true
  | .recomputeMax _ _ => true
  | .recomputeFactor _ _ _ => true
  | .recomputeWrite _ _ => true

/-- The main context's next atomic step accesses the store. -/
def needsStore (s : State) : Bool :=
  match s.main with
  | .execute _ => s.progress.needsStore
  | .streamByte => decide (sourceOf s.mode = .trimTable)
  | .convertMin _ _ => true
  | .convertMax _ _ _ => true
  | .convertFactor _ _ _ => true
  | .loop => false
  | .startSeen => false
  | .startTaken => false
  | .rxEntry _ _ => false
  | .awaitAddress => false
  | .writeAccess => false
  | .receiveByte => false
  | .endAccess => false
  | .endData => false
  | .endClock => false
  | .readAccess => false
  | .composeByte _ => false
  | .advance _ => false
  | .txEntry _ _ => false
  | .sendByte => false
  | .convertFlag _ _ => false
  | .convertOut _ _ _ _ => false

/-- The main context waits for the write in flight (R64). -/
def storeWaits (s : State) : Bool := s.nvBusy && needsStore s

/-- The next move: the first one scheduled, or a free one when none is (R76, R344, log 1). -/
def nextMove (s : State) : Move × State :=
  match s.sched with
  | m :: ms => (m, { s with sched := ms })
  | [] => (Config.freeMove s.draws, { s with draws := s.draws + 1 })

/-- The move stays the next one. -/
def putBack (m : Move) (s : State) : State := { s with sched := m :: s.sched }

/-- A host's byte that the block stretches in the middle: what is left of it is the next move (R160, R364, log 15). -/
def putRestBack (rest : Option Move) (s : State) : State :=
  match rest with
  | none => s
  | some m => putBack m s

/-- The step taken in place of a move that has to wait, by the one it waits for: the store retires its write if the main context waits for
it, else the main context steps (log 9).
DESIGN CHOICE (log 9): between operations of the main loop that step is `DISPATCH`, never `CONVERT`; a schedule that wants `CONVERT` there
says so. -/
def waitStep (run : Meaning) (s : State) : Host.Outcome State Fault Refusal :=
  if storeWaits s then .next (retire s) else mainStep run .dispatch s

/-- The step of an agent other than the main context. A compare event that is due comes first (R122, R313), so does the peer's lowering of
the clock; a move that must wait lets another agent step (`waitStep`, with the DESIGN CHOICE of log 9: `DISPATCH` between operations); each
of these leaves the move the next one, and a byte the block stretches in the middle leaves its rest. -/
def otherStep (run : Meaning) (m : Move) (s : State) : Host.Outcome State Fault Refusal :=
  if compareFirst m s then .next (putBack m (compareEvent s))
  else if lowersClock m s then .next (putBack m (setPeerScl true s))
  else if mustWait m s then waitStep run (putBack m s)
  else .next (putRestBack (moveRest m s) (agentMove m s))

/-- One step of the agent that moves next (R10). -/
def moveStep (run : Meaning) (m : Move) (s : State) : Host.Outcome State Fault Refusal :=
  match m with
  | .dispatch => mainStep run .dispatch s
  | .convert => mainStep run .convert s
  | .tick => otherStep run .tick s
  | .cmp level => otherStep run (.cmp level) s
  | .evD => otherStep run .evD s
  | .btn pins => otherStep run (.btn pins) s
  | .peerSda pull => otherStep run (.peerSda pull) s
  | .peerScl pull => otherStep run (.peerScl pull) s
  | .start => otherStep run .start s
  | .stop => otherStep run .stop s
  | .wbyte b => otherStep run (.wbyte b) s
  | .rbyte ack => otherStep run (.rbyte ack) s
  | .wrest bits => otherStep run (.wrest bits) s
  | .rrest left acc ack => otherStep run (.rrest left acc ack) s
  | .retire => otherStep run .retire s

/-- One step of the machine over a meaning of the decoded bytes: what R8, R164 and R5 exclude is refused by name (log 20). -/
def stepWith (run : Meaning) (s : State) : Host.Outcome State Fault Refusal :=
  if !s.cfg.servesSlave then .refused .softwareBitbangSlave
  else if !s.cfg.wf then .refused .illFormedConfig
  else
    match s.asked with
    | some op => .refused (.excluded op)
    | none => moveStep run (nextMove s).1 (nextMove s).2

end Sys2Proof.Machine
end

