-- ==== Sys2Proof/Machine/Step.lean ====
section
/-! DEFINITION. One step of the machine, and the state in which its next step runs a given command byte. -/

namespace Sys2Proof.Machine

/-- One step: one move of one agent (R10). -/
def step (s : State) : Host.Outcome State Fault Refusal := stepWith exec s

/-- `s` with the command byte `w` delivered to the dispatcher, which begins to execute it in its next step (R211, log 17). -/
def State.withFetchWord (s : State) (nbits w : Nat) : State :=
  { s with
    main := .execute (BitVec.ofNat 8 (w % 2 ^ nbits))
    progress := .fresh
    lowByte := none
    busState := .writeTransfer
    xfer := .halted
    sched := .dispatch :: s.sched }

end Sys2Proof.Machine
end

