-- ==== Sys2Proof/Safety.lean ====
section
/-! DEFINITION. What the statements speak of: the invariants of R32, quiescent points (R344), which fields belong to which context (R320), and repeated operations (streams, ticks, debounce runs). -/

namespace Sys2Proof.Machine

/-- The capture engine's invariant (R25, R32 items 2 and 3): the pins follow the phase, the compare registers follow `T0`, no compare match
has been passed, and a captured count lies inside the capture limit. -/
structure CapInv (s : State) : Prop where
  pinsCharging : s.phase = .charging → s.drive = onehot s.next ∧ s.disch = false
  pinsDischarging : s.phase = .discharging → s.drive = 0 ∧ s.disch = true
  compareA : s.phase = .charging → s.oca = s.t0 + BitVec.ofNat 16 s.cfg.captureLimit
  compareB : s.ocb = s.t0 + BitVec.ofNat 16 s.cfg.scanPeriod
  beforeA : s.phase = .charging → (s.cnt - s.t0).toNat ≤ s.cfg.captureLimit
  beforeB : (s.cnt - s.t0).toNat ≤ s.cfg.scanPeriod
  captured : s.phase = .charging → s.capf = true → (s.icr - s.t0).toNat < s.cfg.captureLimit

/-- `RAW[ch]` is the sentinel or below the capture limit (R32 item 4). -/
def RawInRange (s : State) (ch : Chan) : Prop :=
  s.rawAt ch = rawInvalid ∨ (s.rawAt ch).toNat < s.cfg.captureLimit

/-- `DBC[i] < DEB_THRESHOLD` (R32 item 5). -/
def DebInv (s : State) : Prop := ∀ i : Fin 4, s.dbc[i] < s.cfg.debThreshold

/-- The cursor lies inside the selected stream, or is 0 when there is none (R32 item 6). -/
def CursorInStream (s : State) : Prop :=
  s.cursor.val < (sourceOf s.mode).len ∨ ((sourceOf s.mode).len = 0 ∧ s.cursor = 0)

/-- What an idle block's shifter does: nothing, or with the controller the address byte of the start that is latched (R163, R168). -/
def idleXferOk (s : State) : Bool :=
  match s.cfg.backend with
  | .controller =>
    match s.xfer with
    | .halted => !s.startF
    | .rxData ack => s.startF && decide (ack = .addressMatch s.cfg.addrMask)
    | .rxAck => s.startF && (s.sdaPull == addressMatches s.cfg s.cfg.addrMask (addrField s.sr))
    | .finished (.byte b) => s.startF && addressMatches s.cfg s.cfg.addrMask (addrField b)
    | _ => false
  | .shiftRegister => decide (s.xfer = .halted)
  | .softwareBitbang => decide (s.xfer = .halted)

/-- The progress of a command fits the command (R275, R276). -/
def progressFits (c : Byte) : Progress → Bool
  | .fresh => true
  | .addressDir => false
  | .addressState => false
  | .cornerFirst _ _ => c == 0x20#8 || c == 0x21#8 || c == 0x23#8 || c == 0x24#8
  | .cornerSecond _ => c == 0x20#8 || c == 0x21#8 || c == 0x23#8 || c == 0x24#8
  | .recomputeMin ch => (c == 0x22#8 && decide (ch.val < 2)) || (c == 0x25#8 && decide (2 ≤ ch.val))
  | .recomputeMax ch _ => (c == 0x22#8 && decide (ch.val < 2)) || (c == 0x25#8 && decide (2 ≤ ch.val))
  | .recomputeFactor ch _ _ => (c == 0x22#8 && decide (ch.val < 2)) || (c == 0x25#8 && decide (2 ≤ ch.val))
  | .recomputeWrite ch _ => (c == 0x22#8 && decide (ch.val < 2)) || (c == 0x25#8 && decide (2 ≤ ch.val))

/-- The main context is between operations or in `CONVERT`: the block is idle (R210, R266). -/
def idleCoherent (s : State) : Bool := decide (s.busState = .idle) && idleXferOk s && decide (s.progress = .fresh)

/-- The main context is between two primitives of an access in `b`: the shifter is halted (R181). -/
def betweenPrimitives (b : BusState) (s : State) : Bool :=
  decide (s.busState = b) && decide (s.xfer = .halted) && decide (s.progress = .fresh)

/-- What a start the main context takes finds in the shifter: nothing, or with the controller the completed address byte (R168, R182). -/
def takenXferOk (s : State) : Bool :=
  match s.cfg.backend with
  | .controller =>
    match s.xfer with
    | .finished (.byte b) => addressMatches s.cfg s.cfg.addrMask (addrField b)
    | _ => false
  | .shiftRegister => decide (s.xfer = .halted)
  | .softwareBitbang => decide (s.xfer = .halted)

/-- Where the main context stands, the protocol state and the primitive in progress fit together (R181). -/
def accessCoherent (s : State) : Bool :=
  match s.main with
  | .loop => idleCoherent s
  | .convertFlag _ _ => idleCoherent s
  | .convertMin _ _ => idleCoherent s
  | .convertMax _ _ _ => idleCoherent s
  | .convertFactor _ _ _ => idleCoherent s
  | .convertOut _ _ _ _ => idleCoherent s
  | .startSeen => decide (s.busState = .idle) && takenXferOk s && decide (s.progress = .fresh)
  | .startTaken => decide (s.busState = .idle) && takenXferOk s && decide (s.progress = .fresh)
  | .rxEntry _ .address => betweenPrimitives .addressPhase s
  | .rxEntry _ .command => betweenPrimitives .writeTransfer s
  | .awaitAddress =>
    decide (s.busState = .addressPhase) &&
      match s.progress with
      | .fresh =>
        match s.xfer with
        | .rxData ack => decide (ack = .addressMatch s.cfg.addrMask)
        | .rxAck => s.sdaPull == addressMatches s.cfg s.cfg.addrMask (addrField s.sr)
        | .finished (.byte b) => !s.sclPull || s.startF || addressMatches s.cfg s.cfg.addrMask (addrField b)
        | .finished .aborted => true
        | _ => false
      | .addressDir =>
        match s.xfer with
        | .finished (.byte b) => s.matched == addrField b && addressMatches s.cfg s.cfg.addrMask (addrField b)
        | _ => false
      | .addressState =>
        match s.xfer with
        | .finished (.byte b) =>
          s.matched == addrField b && s.dir == rwField b && addressMatches s.cfg s.cfg.addrMask (addrField b)
        | _ => false
      | _ => false
  | .writeAccess => betweenPrimitives .writeTransfer s
  | .receiveByte =>
    decide (s.busState = .writeTransfer) && decide (s.progress = .fresh) &&
      match s.xfer with
      | .rxData ack => decide (ack = .const true)
      | .rxAck => true
      | .finished (.byte _) => true
      | .finished .aborted => true
      | _ => false
  | .execute c => decide (s.busState = .writeTransfer) && decide (s.xfer = .halted) && progressFits c s.progress
  | .endAccess => betweenPrimitives .writeTransfer s
  | .endData => betweenPrimitives .idle s
  | .endClock => betweenPrimitives .idle s
  | .readAccess => betweenPrimitives .readTransfer s
  | .streamByte => betweenPrimitives .readTransfer s
  | .composeByte _ => betweenPrimitives .readTransfer s
  | .advance _ => betweenPrimitives .readTransfer s
  | .txEntry _ _ => betweenPrimitives .readTransfer s
  | .sendByte =>
    decide (s.busState = .readTransfer) && decide (s.progress = .fresh) &&
      match s.xfer with
      | .txData => true
      | .txAck => true
      | .txSampled _ => true
      | .finished .acked => true
      | .finished .nacked => true
      | .finished .aborted => true
      | _ => false

/-- The clock is stretched only between primitives, for a start that waits or is being taken, or for an access that goes on or is being left
(R160). -/
def stretchJustified (s : State) : Bool :=
  match s.xfer with
  | .halted => s.startF || decide (s.busState ≠ .idle) || s.main.changingOver
  | .finished .acked => true
  | .finished (.byte _) => true
  | .finished _ => s.startF
  | .rxData _ => false
  | .rxAck => false
  | .txData => false
  | .txAck => false
  | .txSampled _ => false

/-- `TxByte` is in its acknowledgement slot. -/
def inAckSlot : Xfer → Bool
  | .txAck => true
  | .txSampled _ => true
  | .halted => false
  | .rxData _ => false
  | .rxAck => false
  | .txData => false
  | .finished _ => false

/-- `TxByte` has set its first bit and is about to release the clock (R158). -/
def firstBitSet : MainPoint → Bool
  | .txEntry .releaseClock _ => true
  | _ => false

/-- The bus invariant: coherence, and the block holds a line only where the rules let it (R151, R160, R167). -/
structure BusInv (s : State) : Prop where
  coherent : accessCoherent s = true
  sdaOnlyInPrimitive : s.sdaPull = true → s.xfer.active = true ∨ firstBitSet s.main = true
  ackSlotReleased : inAckSlot s.xfer = true → s.sdaPull = false
  sclOnlyStretching : s.sclPull = true → stretchJustified s = true
  idleReleases : s.busState = .idle → s.main.changingOver = false → s.startF = false → s.sdaPull = false ∧ s.sclPull = false
  bitCount : s.bitcnt.toNat ≤ 8

/-- The main context is in the streaming of a read access, the cursor set. -/
def streaming : MainPoint → Bool
  | .streamByte => true
  | .composeByte _ => true
  | .advance _ => true
  | .txEntry _ _ => true
  | .sendByte => true
  | .loop => false
  | .startSeen => false
  | .startTaken => false
  | .rxEntry _ _ => false
  | .awaitAddress => false
  | .writeAccess => false
  | .receiveByte => false
  | .execute _ => false
  | .endAccess => false
  | .endData => false
  | .endClock => false
  | .readAccess => false
  | .convertFlag _ _ => false
  | .convertMin _ _ => false
  | .convertMax _ _ _ => false
  | .convertFactor _ _ _ => false
  | .convertOut _ _ _ _ => false

/-- The main context reads a word of the store, byte by byte (R64). -/
def readingWord (s : State) : Bool :=
  match s.main with
  | .convertMin _ _ => true
  | .convertMax _ _ _ => true
  | .convertFactor _ _ _ => true
  | .execute _ =>
    match s.progress with
    | .recomputeMin _ => true
    | .recomputeMax _ _ => true
    | .recomputeFactor _ _ _ => true
    | _ => false
  | _ => false

/-- The cursor is inside its stream during the streaming of a read access (R32 item 6). -/
def StreamInv (s : State) : Prop := streaming s.main = true → CursorInStream s

/-- The invariant every step keeps (R32, R72). -/
structure Inv (s : State) : Prop where
  cap : CapInv s
  debounce : DebInv s
  bus : BusInv s
  stream : StreamInv s
  wordRead : readingWord s = false → s.lowByte = none
  memory : Memory.wf s.cfg s.nv = true
  enabled : s.ie = true

/-- A quiescent point (R344). -/
def quiescent (s : State) : Bool :=
  decide (s.busState = .idle) && !s.startF && decide (s.main = .loop) && !s.nvBusy && s.ie

/-- The bus is free: the peer has released both lines. -/
def busFree (s : State) : Bool := !s.peerSda && !s.peerScl

/-- The fields only the main context writes, other than the store, the schedule and the count of draws, are the same (R315, R320). -/
structure MainFieldsSame (s t : State) : Prop where
  cfg : t.cfg = s.cfg
  busState : t.busState = s.busState
  matched : t.matched = s.matched
  dir : t.dir = s.dir
  mode : t.mode = s.mode
  cursor : t.cursor = s.cursor
  snap : t.snap = s.snap
  out : t.out = s.out
  invalid : t.invalid = s.invalid
  ie : t.ie = s.ie
  main : t.main = s.main
  progress : t.progress = s.progress
  lowByte : t.lowByte = s.lowByte
  asked : t.asked = s.asked

/-- The state of CAP, `UPDATED` apart, is the same (R21 to R25, R130). -/
structure CapFieldsSame (s t : State) : Prop where
  cnt : t.cnt = s.cnt
  oca : t.oca = s.oca
  ocb : t.ocb = s.ocb
  t0 : t.t0 = s.t0
  icr : t.icr = s.icr
  capf : t.capf = s.capf
  phase : t.phase = s.phase
  next : t.next = s.next
  ready : t.ready = s.ready
  raw : t.raw = s.raw
  drive : t.drive = s.drive
  disch : t.disch = s.disch

/-- The state of DEB is the same (R26). -/
structure DebFieldsSame (s t : State) : Prop where
  dbc : t.dbc = s.dbc
  deb : t.deb = s.deb

/-- The bytes of the store outside these offsets read as before, at every address. -/
def storeSameOutside (s t : State) (offsets : List (Fin 24)) : Prop :=
  ∀ a : Nat, a ∉ offsets.map (nvAddr s.cfg) → memRead t.cfg t.nv a = memRead s.cfg s.nv a

/-- The word `w` of the store becomes `v`, every other byte reads as before (R64). -/
def storesWord (s t : State) (w : Fin 12) (v : Word) : Prop :=
  t.nvByte (wordLo w) = v.lo ∧ t.nvByte (wordHi w) = v.hi ∧ storeSameOutside s t [wordLo w, wordHi w]

/-- `StreamByte`, no other agent moving between its steps (R213). -/
def streamByte (s : State) : Except Fault (Byte × State) :=
  match fetchByte s with
  | .ok (f, t) => .ok (composeByte f t, advance t)
  | .error e => .error e

/-- The next `n` bytes of the selected stream, no other agent moving. -/
def streamBytes : Nat → State → Except Fault (List Byte)
  | 0, _ => .ok []
  | n + 1, s =>
    match streamByte s with
    | .error f => .error f
    | .ok (b, t) =>
      match streamBytes n t with
      | .error f => .error f
      | .ok bs => .ok (b :: bs)

/-- The state at the start of a read access in mode `c`, as the selector and `ReadAccess` leave it. -/
def State.reading (s : State) (c : Byte) : State := { s with mode := some c, cursor := 0 }

/-- One tick of CAP alone: a compare event that is due, then `TICK` (R122). -/
def capTick (s : State) : State := tick (if compareDue s then compareEvent s else s)

/-- `n` ticks of CAP alone. -/
def capTicks : Nat → State → State
  | 0, s => s
  | n + 1, s => capTick (capTicks n s)

/-- Debounce ticks with these button levels, one per tick. -/
def debRun : List (BitVec 4) → State → State
  | [], s => s
  | p :: ps, s => debRun ps (evD (setButtons p s))

/-- The factor `Recompute` arrives at for a channel, the `k`-th free value where the spec states none (R274). -/
def newFactor (s : State) (ch : Chan) (k : Nat) : Word :=
  (scaleFactorValue (s.trim ch .min) (s.trim ch .max)).getD (Config.freeFactor k)

/-- How many free values the recomputation of a channel draws. -/
def factorDraws (s : State) (ch : Chan) : Nat := if (s.trim ch .max).toNat < (s.trim ch .min).toNat then 1 else 0

/-- 1 if the recomputation of a channel writes the store, else 0 (R276). -/
def factorWrites (s : State) (ch : Chan) (k : Nat) : Nat := if newFactor s ch k = s.trim ch .factor then 0 else 1

/-- What `CornerSet(j, f)` does as the command `i`, atomic step by atomic step (R275, R64): both samples read in one step, a write that waits
while another is in flight, the second write after the first; everything else unchanged (R232). -/
def cornerSteps (i : Instr) (j : Joystick) (f : TrimField) : Prop :=
  ∀ s : State,
    (s.progress = .fresh →
      exec i s = .next { s with progress := .cornerFirst (s.rawAt (joystickX j)) (s.rawAt (joystickY j)) }) ∧
    ∀ x y : Word,
      (s.nvBusy = true → s.progress = .cornerFirst x y ∨ s.progress = .cornerSecond y → exec i s = .next s) ∧
      (s.nvBusy = false → Memory.wf s.cfg s.nv = true → s.progress = .cornerFirst x y →
        ∃ t : State, exec i s = .next t ∧ storesWord s t (trimWord (joystickX j) f) x ∧
          t = { s with nv := t.nv, nvBusy := true, nvWrites := s.nvWrites + 1, progress := .cornerSecond y }) ∧
      (s.nvBusy = false → Memory.wf s.cfg s.nv = true → s.progress = .cornerSecond y →
        ∃ t : State, exec i s = .next t ∧ storesWord s t (trimWord (joystickY j) f) y ∧
          t = { s with nv := t.nv, nvBusy := true, nvWrites := s.nvWrites + 1, progress := .fresh })

/-- What `Recompute(j)` does as the command `i`, atomic step by atomic step (R276, R64): for the X channel and then the Y channel the three
stored fields are read, low byte and then high byte, each when no write is in flight, and the new factor is written only if it differs;
everything else unchanged (R232). -/
def recomputeSteps (i : Instr) (j : Joystick) : Prop :=
  ∀ s : State,
    (s.progress = .fresh → exec i s = .next { s with progress := .recomputeMin (joystickX j) }) ∧
    (s.nvBusy = true → ∀ (ch : Chan) (a b : Word),
      s.progress = .recomputeMin ch ∨ s.progress = .recomputeMax ch a ∨ s.progress = .recomputeFactor ch a b ∨
        s.progress = .recomputeWrite ch a → exec i s = .next s) ∧
    (s.nvBusy = false → ∀ (ch : Chan) (mn mx new : Word) (lo : Byte),
      let byte (f : TrimField) (k : Nat) : Byte := memRead s.cfg s.nv (trimAddr s.cfg ch f + k)
      let word (f : TrimField) : Word := byte f 1 ++ lo
      let after : Progress := if ch = joystickX j then .recomputeMin (joystickY j) else .fresh
      (s.lowByte = none →
        (s.progress = .recomputeMin ch → exec i s = .next { s with lowByte := some (byte .min 0) }) ∧
        (s.progress = .recomputeMax ch mn → exec i s = .next { s with lowByte := some (byte .max 0) }) ∧
        (s.progress = .recomputeFactor ch mn mx → exec i s = .next { s with lowByte := some (byte .factor 0) })) ∧
      (s.lowByte = some lo →
        (s.progress = .recomputeMin ch → exec i s = .next { s with lowByte := none, progress := .recomputeMax ch (word .min) }) ∧
        (s.progress = .recomputeMax ch mn →
          exec i s = .next { s with lowByte := none, progress := .recomputeFactor ch mn (word .max) }) ∧
        (s.progress = .recomputeFactor ch mn mx → mn.toNat ≤ mx.toNat →
          exec i s = .next { s with
            lowByte := none
            progress := if scaleFactorValue mn mx = some (word .factor) then after
              else .recomputeWrite ch ((scaleFactorValue mn mx).getD 0) }) ∧
        (s.progress = .recomputeFactor ch mn mx → mx.toNat < mn.toNat →
          exec i s = .next { s with
            lowByte := none
            draws := s.draws + 1
            progress := if Config.freeFactor s.draws = word .factor then after
              else .recomputeWrite ch (Config.freeFactor s.draws) })) ∧
      (s.progress = .recomputeWrite ch new → Memory.wf s.cfg s.nv = true →
        ∃ t : State, exec i s = .next t ∧ storesWord s t (trimWord ch .factor) new ∧
          t = { s with nv := t.nv, nvBusy := true, nvWrites := s.nvWrites + 1, progress := after }))

/-- The moves under which the main context executes any one command to its end and returns to the main loop, a write in flight before the
command or between two of its store accesses retiring. -/
def commandMoves : List Move :=
  [.retire] ++ List.replicate 2 .dispatch ++ [.retire] ++ List.replicate 6 .dispatch ++ [.retire] ++ List.replicate 10 .dispatch ++
    [.retire]

/-- The command byte `c` executed to its end from `s`, no agent moving but the main context and the store. -/
def runCommand (c : Byte) (s : State) : Host.Outcome State Fault Refusal :=
  core.run 22 { s with main := .execute c, progress := .fresh, sched := commandMoves }

/-- The block has just received a command byte: the write transfer stands between two primitives, no start waits (R184, R211). -/
def commandReceived (s : State) : Bool :=
  s.cfg.ok && decide (s.asked = none) && decide (s.busState = .writeTransfer) && decide (s.xfer = .halted) && !s.startF && !s.sdaPull &&
    decide (s.lowByte = none)

/-- What a command leaves once it is over and the bus is released, the store and the draws apart (R186, R232). -/
def afterCommand (s t : State) : Prop :=
  t = { s with
    nv := t.nv, nvBusy := false, nvWrites := t.nvWrites, draws := t.draws, main := .loop, progress := .fresh,
    busState := .idle, sclPull := false, sched := [] }

/-- `CornerSet(j, f)` as the whole command `c` (R275): both samples stand in the field, two writes. -/
def storesCorner (c : Byte) (j : Joystick) (f : TrimField) (s : State) : Prop :=
  let x := joystickX j
  let y := joystickY j
  ∃ t : State, runCommand c s = .next t ∧ afterCommand s t ∧
    t.trim x f = s.rawAt x ∧ t.trim y f = s.rawAt y ∧
    storeSameOutside s t [wordLo (trimWord x f), wordHi (trimWord x f), wordLo (trimWord y f), wordHi (trimWord y f)] ∧
    t.nvWrites = s.nvWrites + 2 ∧ t.draws = s.draws

/-- `Recompute(j)` as the whole command `c` (R276): each channel holds the factor of its corners, written only if it changed. -/
def recomputesFactors (c : Byte) (j : Joystick) (s : State) : Prop :=
  let x := joystickX j
  let y := joystickY j
  let ky := s.draws + factorDraws s x
  ∃ t : State, runCommand c s = .next t ∧ afterCommand s t ∧
    t.trim x .factor = newFactor s x s.draws ∧ t.trim y .factor = newFactor s y ky ∧
    storeSameOutside s t [wordLo (trimWord x .factor), wordHi (trimWord x .factor),
      wordLo (trimWord y .factor), wordHi (trimWord y .factor)] ∧
    t.nvWrites = s.nvWrites + factorWrites s x s.draws + factorWrites s y ky ∧
    t.draws = ky + factorDraws s y

/-- The run from `s` in which the `n`-th move is `ms n` (R76, R344): a move that has to wait is not kept, the agent may make it again. Where a
step does not go on the run stands still. What is left of a byte the block stretches in the middle is not kept either: the host goes on with it
by making it the next move (log 15). -/
def runOn (ms : Nat → Move) (s : State) : Nat → State
  | 0 => s
  | n + 1 =>
    match step { runOn ms s n with sched := [ms n] } with
    | .next t => t
    | .fault _ => runOn ms s n
    | .refused _ => runOn ms s n

/-- A bus primitive the main context has started is in progress (R344, R361). The address byte that the peripheral of an idle controller receives on
its own is none: the main context does not wait for it (R163, R168). -/
def inPrimitive (s : State) : Bool :=
  s.xfer.active &&
    match s.main with
    | .awaitAddress => true
    | .receiveByte => true
    | .sendByte => true
    | _ => false

/-- A run is fair (R343, R344): time and the debounce timer go on, every write in flight retires, the main context gets its turns, and, if
every primitive it starts comes to an end (the host's duty, R345), it begins `DISPATCH` and `CONVERT` each again and again. A compare event
that is due is taken at once by the step itself (R122). -/
structure FairRun (ms : Nat → Move) (s : State) : Prop where
  ticks : ∀ n, ∃ k, n ≤ k ∧ ms k = .tick ∧ compareDue (runOn ms s k) = false
  debounces : ∀ n, ∃ k, n ≤ k ∧ ms k = .evD ∧ compareDue (runOn ms s k) = false
  retires : ∀ n, ∃ k, n ≤ k ∧ (runOn ms s k).nvBusy = false
  turns : ∀ n, ∃ k, n ≤ k ∧ (ms k = .dispatch ∨ ms k = .convert)
  dispatches : (∀ n, ∃ k, n ≤ k ∧ inPrimitive (runOn ms s k) = false) →
    ∀ n, ∃ k, n ≤ k ∧ ms k = .dispatch ∧ (runOn ms s k).main = .loop
  converts : (∀ n, ∃ k, n ≤ k ∧ inPrimitive (runOn ms s k) = false) →
    ∀ n, ∃ k, n ≤ k ∧ ms k = .convert ∧ (runOn ms s k).main = .loop

end Sys2Proof.Machine
end

