-- ==== Sys2Proof/Certificates/Slice0/Obligations.lean ====
section
/-! DEFINITION. The statements about the model, drawn from the numbered rules of the spec. -/

open Sys2Proof Sys2Proof.Machine

/-! ## Encoding -/

/-- Every well-formed instruction's byte decodes to it in its context, and every byte of either context decodes to a well-formed instruction
whose byte it is: no bit of an encoding is dropped (R90, R92, R101, R103). -/
def Obligations.DecodeAndEncodeAgree : Prop :=
  (∀ i : Instr, i.wellFormed = true → decode i.context (encode i) = .ok (i, [])) ∧
  (∀ (ctx : ByteContext) (b : Byte),
    (decodeByte ctx b).wellFormed = true ∧ (decodeByte ctx b).context = ctx ∧ encodeByte (decodeByte ctx b) = b)

/-- Words written out from the tables of R90 and R92. -/
def Obligations.TableWordsDecode : Prop :=
  decodeByte .address 0b01010011#8 = .addr 0b0101001#7 true ∧
  decodeByte .address 0b01010000#8 = .addr 0b0101000#7 false ∧
  decodeByte .command 0b00000000#8 = .rdAll ∧
  decodeByte .command 0b00000101#8 = .rdBtn ∧
  decodeByte .command 0b00100000#8 = .calA1 ∧
  decodeByte .command 0b00100101#8 = .calF2 ∧
  decodeByte .command 0b10000000#8 = .rdRaw ∧
  decodeByte .command 0b10000001#8 = .rdTrim ∧
  decodeByte .command 0b00000110#8 = .opaqueMode 0b00000110#8 ∧
  decodeByte .command 0b11111111#8 = .opaqueMode 0b11111111#8

/-- The address match is masked equality; with the deployment's mask and an even base address exactly A and A+1 match (R91, S7). -/
def Obligations.AddressMatchIsMaskedEquality : Prop :=
  (∀ (p : Params) (mask a : BitVec 7), addressMatches p mask a = true ↔ a &&& mask = p.slaveAddr &&& mask) ∧
  (∀ (p : Params) (a : BitVec 7), p.slaveAddr.getLsbD 0 = false →
    (addressMatches p 0b1111110#7 a = true ↔ a = p.slaveAddr ∨ a = p.slaveAddr + 1#7))

/-- The buttons byte: bit `i` is `DEB[i]`, read in one critical section, bit `i + 4` is `INVALID[i]`, read when the byte is put together (R93,
R216). -/
def Obligations.ButtonsByteLayout : Prop :=
  (∀ s : State, fetchByte (s.reading 5#8) = .ok (.debounced s.deb, s.reading 5#8)) ∧
  ∀ (s : State) (d : BitVec 4) (i : Fin 4),
    (composeByte (.debounced d) s).getLsbD i.val = d.getLsbD i.val ∧
    (composeByte (.debounced d) s).getLsbD (i.val + 4) = s.invalid.getLsbD i.val

/-! ## A step runs the decoded byte -/

/-- When the command byte being executed decodes to `i`, the main context's next step is `exec i`; the command then goes on, or is over and
`end_access` comes next (R211). -/
def Obligations.StepExecutesCommandByte : Prop :=
  ∀ (s : State) (c : Byte) (i : Instr) (m : Move) (ms : List Move),
    s.cfg.ok = true → s.asked = none → s.main = .execute c → s.sched = m :: ms → (m = .dispatch ∨ m = .convert) →
    decode .command [c] = .ok (i, []) →
    step s = thenNext (exec i { s with sched := ms }) fun t =>
      if t.progress = .fresh then { t with main := .endAccess } else t

/-- When the address byte is complete and decodes to `i`, the main context's next step is `exec i`; the writes of a match then go on, or
`await_address` is over: back in the main loop if the block is in `Idle` (the controller's peripheral going on to a start that is latched, log
31), else at the beginning of `ReadAccess` or `WriteAccess` as `DIR` says (R182, R210). -/
def Obligations.StepExecutesAddressByte : Prop :=
  ∀ (s : State) (b : Byte) (i : Instr) (m : Move) (ms : List Move),
    s.cfg.ok = true → s.asked = none → s.main = .awaitAddress → s.xfer = .finished (.byte b) → s.sched = m :: ms →
    (m = .dispatch ∨ m = .convert) → decode .address [b] = .ok (i, []) →
    step s = thenNext (exec i { s with sched := ms }) fun t =>
      if t.progress ≠ .fresh then t
      else if t.busState = .idle then listen { t with xfer := .halted, main := .loop }
      else { t with xfer := .halted, main := if t.dir then .readAccess else .writeAccess }

/-- A whole write access over a free bus, on either backend: an address byte that matches is acknowledged, one command byte is acknowledged, the
command is executed, the block is back in `Idle`; a calibration command leaves `MODE` as it was (what it stores is in the statements about
calibration), every other command becomes it (R101, R168, R187, R211). The schedule is the model's (log 1, log 8, log 15), the controller's part
log 31. -/
def Obligations.WriteAccessExecutesCommand : Prop :=
  ∀ (s : State) (a : BitVec 7) (c : Byte),
    Inv s → s.cfg.ok = true → s.asked = none → quiescent s = true → busFree s = true →
    addressMatches s.cfg s.cfg.addrMask a = true →
    ∃ r t u : State,
      core.run 9 { s with sched := [.start] ++ List.replicate 7 .dispatch ++ [.wbyte (a ++ 0#1)] } = .next r ∧
      r.hostSaw = some (.ack true) ∧ r.sched = [] ∧
      core.run 12 { r with sched := List.replicate 11 .dispatch ++ [.wbyte c] } = .next t ∧
      t.hostSaw = some (.ack true) ∧ t.main = .receiveByte ∧ t.matched = a ∧ t.dir = false ∧ t.sched = [] ∧
      core.run 23 { t with sched := .dispatch :: commandMoves } = .next u ∧
      u.busState = .idle ∧ u.main = .loop ∧ u.sdaPull = false ∧ u.sclPull = false ∧
      u.mode = (if 32 ≤ c.toNat ∧ c.toNat ≤ 37 then s.mode else some c)

/-! ## The address byte -/

/-- A complete address byte: on a match `MATCHED`, `DIR` and `BUS_STATE` are written in turn, one in a step, and the access its direction names
begins; else the block returns to `Idle`; all else stands (R10, R182, R183, R102, R168). -/
def Obligations.AddressByteBeginsAccessOrIdles : Prop :=
  ∀ (s : State) (a : BitVec 7) (r : Bool), s.cfg.servesSlave = true →
    (addressMatches s.cfg s.cfg.addrMask a = true →
      (s.progress = .fresh → exec (.addr a r) s = .next { s with matched := a, progress := .addressDir }) ∧
      (s.progress = .addressDir → exec (.addr a r) s = .next { s with dir := r, progress := .addressState }) ∧
      (s.progress = .addressState →
        exec (.addr a r) s =
          .next { s with busState := if r then .readTransfer else .writeTransfer, progress := .fresh }) ∧
      (s.cfg.ok = true → s.asked = none → s.main = .awaitAddress → s.progress = .fresh →
        s.xfer = .finished (.byte (a ++ BitVec.ofBool r)) →
        core.run 3 { s with sched := [.dispatch, .dispatch, .dispatch] } =
          .next { s with
            sched := [], matched := a, dir := r, busState := if r then .readTransfer else .writeTransfer, xfer := .halted,
            main := if r then .readAccess else .writeAccess })) ∧
    (addressMatches s.cfg s.cfg.addrMask a = false → s.progress = .fresh →
      exec (.addr a r) s = .next { s with busState := .idle })

/-- `await_address` is a poll: with no start pending, or on the controller no completed address byte, nothing changes. A pending start is
consumed, `BUS_STATE` enters the address phase, and `RxByte` begins, which the controller's peripheral has completed already; the clock
stays as it is held meanwhile (R10, R182, R160, R168, C10). -/
def Obligations.AwaitAddressPolls : Prop :=
  ∀ (s : State) (ms : List Move), s.cfg.ok = true → s.asked = none → s.sched = .dispatch :: ms →
    (s.main = .loop → s.cfg.backend = .shiftRegister → s.startF = false → step s = .next { s with sched := ms }) ∧
    (s.main = .loop → s.cfg.backend = .controller → (∀ b, s.xfer ≠ .finished (.byte b)) → step s = .next { s with sched := ms }) ∧
    (s.main = .loop → s.cfg.backend = .shiftRegister → s.busState = .idle → s.startF = true →
      step s = .next { s with sched := ms, main := .startSeen }) ∧
    (s.main = .loop → s.cfg.backend = .controller → s.busState = .idle → (∃ b, s.xfer = .finished (.byte b)) →
      step s = .next { s with sched := ms, main := .startSeen }) ∧
    (s.main = .startSeen → step s = .next { s with sched := ms, startF := false, main := .startTaken }) ∧
    (s.main = .startTaken → s.cfg.backend = .shiftRegister →
      step s = .next { s with sched := ms, busState := .addressPhase, main := .rxEntry .clearStop .address }) ∧
    (s.main = .startTaken → s.cfg.backend = .controller →
      step s = .next { s with sched := ms, busState := .addressPhase, main := .awaitAddress })

/-- The entry of `RxByte`, for the address byte and for the command byte, one write in a step; with the last the primitive is in progress and the
clock released. If the peer already lets the clock go (the ordinary form of a stretch), the release raises it: the first bit is sampled at
once, and a condition sensed since `STOP_F` was cleared aborts (R10, R157, R160, R184). -/
def Obligations.RxByteEntryLoadsTheShifter : Prop :=
  ∀ (s : State) (ms : List Move) (u : RxUse), s.cfg.ok = true → s.asked = none → s.sched = .dispatch :: ms →
    let ack : AckPolicy := if u = .address then .addressMatch s.cfg.addrMask else .const true
    let after : MainPoint := if u = .address then .awaitAddress else .receiveByte
    (s.main = .rxEntry .clearStop u → step s = .next { s with sched := ms, stopF := false, main := .rxEntry .releaseData u }) ∧
    (s.main = .rxEntry .releaseData u → s.scl = false ∨ s.sdaPull = false →
      step s = .next { s with sched := ms, sdaPull := false, main := .rxEntry .loadCount u }) ∧
    (s.main = .rxEntry .loadCount u → step s = .next { s with sched := ms, bitcnt := 8, main := .rxEntry .releaseClock u }) ∧
    (s.main = .rxEntry .releaseClock u → s.peerScl = true ∨ s.sclPull = false →
      step s = .next { s with sched := ms, sclPull := false, xfer := .rxData ack, main := after }) ∧
    (s.main = .rxEntry .releaseClock u → s.peerScl = false → s.sclPull = true → s.bitcnt = 8 → s.sdaPull = false →
      (s.startF = false → s.stopF = false →
        step s = .next { s with
          sched := ms, bitcnt := 7, sclPull := false, xfer := .rxData ack, main := after,
          sr := s.sr.extractLsb' 0 7 ++ BitVec.ofBool (!s.peerSda) }) ∧
      (s.startF = true ∨ s.stopF = true → s.busState ≠ .idle →
        step s = .next { s with
          sched := ms, bitcnt := 7, sclPull := false, xfer := .finished .aborted, main := after,
          sr := s.sr.extractLsb' 0 7 ++ BitVec.ofBool (!s.peerSda) }))

/-- An aborted address byte is folded into `NoMatch`: back to `Idle`, a start that caused it stays latched (R182, R190). On the controller
the peripheral goes on to that start's address byte by itself (log 31). -/
def Obligations.AbortedAddressKeepsStart : Prop :=
  ∀ (s : State) (ms : List Move), s.cfg.ok = true → s.asked = none → s.main = .awaitAddress → s.xfer = .finished .aborted →
    s.sched = .dispatch :: ms →
    (s.cfg.backend = .shiftRegister ∨ s.startF = false →
      step s = .next { s with sched := ms, busState := .idle, xfer := .halted, main := .loop }) ∧
    (s.cfg.backend = .controller → s.startF = true → s.sdaPull = false → s.peerScl = true →
      step s = .next { s with
        sched := ms, busState := .idle, main := .loop, stopF := false, bitcnt := 8, sclPull := false,
        xfer := .rxData (.addressMatch s.cfg.addrMask) })

/-! ## Transport -/

/-- The host sends a byte to a receiver at its first bit. In a primitive of the main context: the byte is in the shift register, the host sees
the acknowledgement the receiver's operand gives, and an acknowledged byte is followed by a stretched clock (R157, R160, R182, R187). In
an idle controller: the same for the block's own address, and for another address no completion and no start left (R168, R183). If the
primitive ends `Aborted` at the first bit, for a start sensed before it began, the block holds the clock from that bit's falling edge, and the
host honours this in the middle of its byte: no bit is clocked on the held clock, the rest of the byte is its next move (R160, R364, log 15). -/
def Obligations.HostByteIsReceivedAndAcknowledged : Prop :=
  ∀ (s : State) (b : Byte) (ack : AckPolicy), s.xfer = .rxData ack → s.bitcnt = 8 →
    s.peerScl = true → s.sclPull = false → s.sdaPull = false →
    (s.autonomous = false → s.startF = false → s.stopF = false →
      moveRest (.wbyte b) s = none ∧
      agentMove (.wbyte b) s =
        { s with
          sr := b, bitcnt := 0, xfer := .finished (.byte b), peerSda := false,
          sclPull := ack.eval s.cfg b, hostSaw := some (.ack (ack.eval s.cfg b)) }) ∧
    (s.autonomous = true → ack.eval s.cfg b = true →
      moveRest (.wbyte b) s = none ∧
      agentMove (.wbyte b) s =
        { s with
          sr := b, bitcnt := 0, xfer := .finished (.byte b), peerSda := false, sclPull := true,
          hostSaw := some (.ack true) }) ∧
    (s.autonomous = true → ack.eval s.cfg b = false →
      moveRest (.wbyte b) s = none ∧
      agentMove (.wbyte b) s =
        { s with
          sr := b, bitcnt := 0, xfer := .halted, startF := false, peerSda := false, hostSaw := some (.ack false) }) ∧
    (s.autonomous = false → s.startF = true →
      let rest : Move := .wrest [b.getLsbD 6, b.getLsbD 5, b.getLsbD 4, b.getLsbD 3, b.getLsbD 2, b.getLsbD 1, b.getLsbD 0]
      moveRest (.wbyte b) s = some rest ∧
      agentMove (.wbyte b) s =
        { s with
          sr := s.sr.extractLsb' 0 7 ++ BitVec.ofBool (b.getLsbD 7), bitcnt := 7, xfer := .finished .aborted,
          peerSda := !b.getLsbD 7, sclPull := true } ∧
      ∀ ms : List Move, s.cfg.ok = true → s.asked = none → s.sched = .wbyte b :: ms →
        step s = .next { agentMove (.wbyte b) s with sched := rest :: ms })

/-- The host reads a byte from a sender at its first bit: it sees the byte, and its answer ends the primitive `Acked` or `Nacked`; after an
ACK the clock is stretched (R158, R160, R187). -/
def Obligations.HostReadsTheByteSent : Prop :=
  ∀ (s : State) (x : Byte) (ack : Bool), s.xfer = .txData → s.bitcnt = 8 → s.sr = x → s.sdaPull = !x.getLsbD 7 →
    s.startF = false → s.stopF = false → s.peerScl = true → s.sclPull = false →
    moveRest (.rbyte ack) s = none ∧
    agentMove (.rbyte ack) s =
      { s with
        sr := x <<< 7, bitcnt := 0, xfer := .finished (if ack then .acked else .nacked), sdaPull := false,
        peerSda := false, sclPull := ack, hostSaw := some (.byte x) }

/-- A host byte for a block that is in `Idle` with no start pending or being taken: nothing of the block changes; the host sees NACK on a write and
0xFF on a read (R183, R187). -/
def Obligations.IdleBlockIgnoresHostBytes : Prop :=
  ∀ (s : State) (b : Byte) (ack : Bool), s.xfer = .halted → s.busState = .idle → s.startF = false → s.main.changingOver = false →
    s.sdaPull = false → s.sclPull = false →
    moveRest (.wbyte b) s = none ∧ moveRest (.rbyte ack) s = none ∧
    agentMove (.wbyte b) s = { s with peerSda := false, peerScl := true, hostSaw := some (.ack false) } ∧
    agentMove (.rbyte ack) s = { s with peerSda := false, peerScl := true, hostSaw := some (.byte 0xFF#8) }

/-- Data falling while the clock is high is a start: `START_F` is set and a primitive of the main context ends `Aborted` (R152, R154, R157), also
in the ninth high phase of `TxByte` (log 32), `SR` and `BITCNT` as they were (log 12); an idle controller begins the address byte
(R163, R168, log 31). -/
def Obligations.StartConditionIsLatchedAndAborts : Prop :=
  ∀ s : State, s.scl = true → s.sda = true →
    (s.autonomous = false →
      agentMove (.peerSda true) s =
        { s with peerSda := true, startF := true, xfer := if s.xfer.active then .finished .aborted else s.xfer }) ∧
    (s.autonomous = true →
      agentMove (.peerSda true) s =
        { s with
          peerSda := true, startF := true, stopF := false, bitcnt := 8, xfer := .rxData (.addressMatch s.cfg.addrMask) })

/-- Data rising while the clock is high is a stop: `STOP_F` is set and a primitive of the main context ends `Aborted` (R152, R155, R157), also
in the ninth high phase of `TxByte` (log 32), `SR` and `BITCNT` as they were (log 12); an idle controller drops the address byte in
progress (log 31), and with none in progress the flag is all. While the block holds the data line low the peer makes neither condition (R158, R345). -/
def Obligations.StopConditionAborts : Prop :=
  ∀ s : State,
    (s.scl = true → s.sdaPull = false → s.peerSda = true →
      (s.autonomous = false →
        agentMove (.peerSda false) s =
          { s with peerSda := false, stopF := true, xfer := if s.xfer.active then .finished .aborted else s.xfer }) ∧
      (s.autonomous = true → s.xfer.active = true →
        agentMove (.peerSda false) s = { s with peerSda := false, stopF := true, startF := false, xfer := .halted }) ∧
      (s.autonomous = true → s.xfer.active = false →
        agentMove (.peerSda false) s = { s with peerSda := false, stopF := true })) ∧
    (s.sdaPull = true → ∀ p : Bool, agentMove (.peerSda p) s = { s with peerSda := p })

/-- A start sensed in the middle of a byte, then the main context's steps: the primitive's operation returns to `Idle` and that start's address
byte is received: after the next poll (C8, R181, R184, R185), or by the controller on its own (R168, log 31). -/
def Obligations.ServedAfterRepeatedStart : Prop :=
  ∀ (s : State), s.cfg.ok = true → s.asked = none → s.main = .receiveByte ∨ s.main = .sendByte → s.busState ≠ .idle →
    s.xfer.active = true → s.scl = true → s.sda = true →
    ∃ t : State, core.run 10 { s with sched := [.peerSda true, .peerScl true] ++ List.replicate 8 .dispatch } = .next t ∧
      t.xfer = .rxData (.addressMatch s.cfg.addrMask) ∧ t.bitcnt = 8 ∧ t.sclPull = false ∧ t.sdaPull = false ∧ t.mode = s.mode ∧
      (s.cfg.backend = .shiftRegister → t.main = .awaitAddress ∧ t.busState = .addressPhase ∧ t.startF = false) ∧
      (s.cfg.backend = .controller → t.main = .loop ∧ t.busState = .idle ∧ t.startF = true)

/-- The peer's moves, the writes by which either primitive begins and the controller's going on to an address byte touch only the transport
registers: every other element is the same (R159, R166). -/
def Obligations.LineMovesTouchOnlyTransport : Prop :=
  ∀ (s t : State),
    ((∃ m, t = agentMove m s ∧
        ((∃ p, m = .peerSda p) ∨ (∃ p, m = .peerScl p) ∨ m = .start ∨ m = .stop ∨ (∃ b, m = .wbyte b) ∨ (∃ a, m = .rbyte a) ∨
          (∃ bs, m = .wrest bs) ∨ (∃ k acc a, m = .rrest k acc a))) ∨
      t = clearStop s ∨ (∃ b, t = loadByte b s) ∨ t = loadCount s ∨ (∃ p, t = setData p s) ∨ (∃ x, t = releaseClock x s) ∨
      t = listen s) →
    MainFieldsSame s t ∧ CapFieldsSame s t ∧ DebFieldsSame s t ∧
      t.updated = s.updated ∧ t.nv = s.nv ∧ t.nvBusy = s.nvBusy ∧ t.nvWrites = s.nvWrites ∧ t.draws = s.draws ∧
      t.sched = s.sched ∧ t.cmp = s.cmp ∧ t.btnIn = s.btnIn

/-! ## Protocol and dispatcher -/

/-- `end_access()` goes to `Idle` and releases both lines, one write in a step (R10, R186); where the clock is low or the block does not pull the
data line, no primitive runs and no start waits, nothing else changes. -/
def Obligations.EndAccessReleasesTheBus : Prop :=
  (∀ s : State, (endAccess s).busState = .idle ∧ (endData s).sdaPull = false ∧ (endClock s).sclPull = false) ∧
  (∀ (s : State) (ms : List Move), s.cfg.ok = true → s.asked = none → s.sched = .dispatch :: ms →
    (s.main = .endAccess → step s = .next { s with sched := ms, busState := .idle, main := .endData }) ∧
    (s.main = .endData → s.scl = false ∨ s.sdaPull = false →
      step s = .next { s with sched := ms, sdaPull := false, main := .endClock }) ∧
    (s.main = .endClock → s.xfer = .halted → s.startF = false →
      step s = .next { s with sched := ms, sclPull := false, main := .loop }))

/-- `receive_byte` begins `RxByte` in a write transfer; its end delivers a byte for execution, and an aborted byte executes nothing and leaves the
access (R184, R157, R211). -/
def Obligations.ReceiveByteDeliversOrLeaves : Prop :=
  ∀ (s : State) (ms : List Move), s.cfg.ok = true → s.asked = none → s.sched = .dispatch :: ms →
    (s.main = .writeAccess → s.busState = .writeTransfer →
      step s = .next { s with sched := ms, main := .rxEntry .clearStop .command }) ∧
    (∀ c : Byte, s.main = .receiveByte → s.xfer = .finished (.byte c) → s.sr = c →
      step s = .next { s with sched := ms, xfer := .halted, main := .execute c }) ∧
    (s.main = .receiveByte → s.xfer = .finished .aborted → s.cfg.backend = .shiftRegister ∨ s.startF = false →
      step s = .next { s with sched := ms, busState := .idle, xfer := .halted, main := .loop })

/-- A read access starts with the cursor at 0; `send_byte` ends: the stream goes on after an ACK and the access ends after a NACK or an abort
(R185, R212). -/
def Obligations.ReadAccessGoesOnOnlyAfterAck : Prop :=
  ∀ (s : State) (ms : List Move), s.cfg.ok = true → s.asked = none → s.sched = .dispatch :: ms →
    (s.main = .readAccess → step s = .next { s with sched := ms, cursor := 0, main := .streamByte }) ∧
    (s.main = .sendByte → s.xfer = .finished .acked → step s = .next { s with sched := ms, xfer := .halted, main := .streamByte }) ∧
    (s.main = .sendByte → s.xfer = .finished .nacked ∨ s.xfer = .finished .aborted →
      s.cfg.backend = .shiftRegister ∨ s.startF = false →
      step s = .next { s with sched := ms, busState := .idle, xfer := .halted, main := .loop })

/-- The byte fetched is the byte offered. `StreamByte` waits only for a write in flight under the trim stream; then come its read, what the buttons
byte or the snapshot still needs, and the cursor. `TxByte` then clears `STOP_F`, loads the shifter, puts the first bit on the line while the
clock is low, and releases the clock, whether the peer still holds it or its rise follows at once; one write in a step (R10, R158, R160,
R212, R213, R215, R216, R230). -/
def Obligations.FetchedByteIsOffered : Prop :=
  ∀ (s : State) (ms : List Move) (b : Byte), s.cfg.ok = true → s.asked = none → s.sched = .dispatch :: ms →
    (s.main = .streamByte → s.nvBusy = true → s.mode = some 129#8 → step s = .next { s with sched := ms }) ∧
    (∀ (f : Fetched) (u : State), s.main = .streamByte → s.busState = .readTransfer → s.nvBusy = false ∨ s.mode ≠ some 129#8 →
      fetchByte { s with sched := ms } = .ok (f, u) → step s = .next { u with main := .composeByte f }) ∧
    (s.main = .composeByte (.byte b) → step s = .next { s with sched := ms, main := .advance b }) ∧
    (∀ d : BitVec 4, s.main = .composeByte (.debounced d) → step s = .next { s with sched := ms, main := .advance (s.invalid ++ d) }) ∧
    (s.main = .composeByte .snapshot →
      step s = .next { s with
        sched := ms, main := .advance (if s.cursor.val % 2 = 0 then s.snap.extractLsb' 0 8 else s.snap.extractLsb' 8 8) }) ∧
    (s.main = .advance b →
      step s = .next { s with
        sched := ms, cursor := advanceCursor (sourceOf s.mode).len s.cursor, main := .txEntry .clearStop b }) ∧
    (s.main = .txEntry .clearStop b → step s = .next { s with sched := ms, stopF := false, main := .txEntry .loadByte b }) ∧
    (s.main = .txEntry .loadByte b → step s = .next { s with sched := ms, sr := b, main := .txEntry .loadCount b }) ∧
    (s.main = .txEntry .loadCount b → step s = .next { s with sched := ms, bitcnt := 8, main := .txEntry .setBit b }) ∧
    (s.main = .txEntry .setBit b → s.scl = false →
      step s = .next { s with sched := ms, sdaPull := !s.sr.getLsbD 7, main := .txEntry .releaseClock b }) ∧
    (s.main = .txEntry .releaseClock b →
      step s = .next { s with sched := ms, sclPull := false, xfer := .txData, main := .sendByte })

/-- While a primitive waits for the peer, the main context makes no progress (R189, R361). -/
def Obligations.MainContextWaitsForThePeer : Prop :=
  ∀ (s : State) (m : Move) (ms : List Move), s.cfg.ok = true → s.asked = none →
    (s.main = .awaitAddress ∨ s.main = .receiveByte ∨ s.main = .sendByte) → s.xfer.active = true →
    s.sched = m :: ms → (m = .dispatch ∨ m = .convert) →
    step s = .next { s with sched := ms }

/-! ## Read selectors and their streams -/

/-- `StreamByte` with a source: the cursor goes on by one and wraps at the stream's length; in a state that meets R32 item 6 it always fetches
(R213). -/
def Obligations.CursorAdvancesAndWraps : Prop :=
  ∀ s : State, CursorInStream s → 0 < (sourceOf s.mode).len →
    ∃ (b : Byte) (t : State), streamByte s = .ok (b, t) ∧
      t.cursor.val = (s.cursor.val + 1) % (sourceOf s.mode).len ∧ t.mode = s.mode ∧ CursorInStream t

/-- `RD_ALL` selects the read-all stream: any number of bytes repeats the four outputs and the buttons byte in order (R217, S5). -/
def Obligations.RdAllStreamsFiveSlots : Prop :=
  encode .rdAll = [0x00#8] ∧ ∀ s : State, exec .rdAll s = .next { s with mode := some 0#8 } ∧
    ∀ n : Nat, streamBytes n (s.reading 0#8) =
      .ok ((List.range n).map fun k =>
        [s.outAt 0, s.outAt 1, s.outAt 2, s.outAt 3, packButtons s.invalid s.deb].getD (k % 5) 0)

/-- `RD_X1`, `RD_Y1`, `RD_X2`, `RD_Y2` select one channel's output byte, `RD_BTN` the buttons byte, repeated (R218 to R222). -/
def Obligations.SingleByteSelectorsRepeat : Prop :=
  encode .rdX1 = [0x01#8] ∧ encode .rdY1 = [0x02#8] ∧ encode .rdX2 = [0x03#8] ∧ encode .rdY2 = [0x04#8] ∧
  encode .rdBtn = [0x05#8] ∧
  ∀ s : State,
    exec .rdX1 s = .next { s with mode := some 1#8 } ∧ exec .rdY1 s = .next { s with mode := some 2#8 } ∧
    exec .rdX2 s = .next { s with mode := some 3#8 } ∧ exec .rdY2 s = .next { s with mode := some 4#8 } ∧
    exec .rdBtn s = .next { s with mode := some 5#8 } ∧
    ∀ n : Nat,
      streamBytes n (s.reading 1#8) = .ok (List.replicate n (s.outAt 0)) ∧
      streamBytes n (s.reading 2#8) = .ok (List.replicate n (s.outAt 1)) ∧
      streamBytes n (s.reading 3#8) = .ok (List.replicate n (s.outAt 2)) ∧
      streamBytes n (s.reading 4#8) = .ok (List.replicate n (s.outAt 3)) ∧
      streamBytes n (s.reading 5#8) = .ok (List.replicate n (packButtons s.invalid s.deb))

/-- `RD_RAW` selects the raw stream: the four samples as little-endian pairs in channel order, repeated, with the snapshot or without (R229,
R67, R95, S4). -/
def Obligations.RdRawStreamsLittleEndianPairs : Prop :=
  encode .rdRaw = [0x80#8] ∧ ∀ s : State, exec .rdRaw s = .next { s with mode := some 128#8 } ∧
    ∀ n : Nat, streamBytes n (s.reading 128#8) =
      .ok ((List.range n).map fun k =>
        [(s.rawAt 0).lo, (s.rawAt 0).hi, (s.rawAt 1).lo, (s.rawAt 1).hi,
         (s.rawAt 2).lo, (s.rawAt 2).hi, (s.rawAt 3).lo, (s.rawAt 3).hi].getD (k % 8) 0)

/-- `RD_TRIM` selects the trim stream: the 24 bytes of the store in address order, repeated; a byte whose `NvRead8` has to wait is fetched
once it need not (R230, R96, R64). Record `ch` lies at `NV_BASE + 6*ch`: minimum, maximum, factor, each low byte first (R63, R265). -/
def Obligations.RdTrimStreamsTheTable : Prop :=
  encode .rdTrim = [0x81#8] ∧
  (∀ (p : Params) (ch : Chan), trimAddr p ch .min = p.nvBase + 6 * ch.val ∧ trimAddr p ch .max = p.nvBase + 6 * ch.val + 2 ∧
    trimAddr p ch .factor = p.nvBase + 6 * ch.val + 4) ∧
  ∀ s : State, exec .rdTrim s = .next { s with mode := some 129#8 } ∧
    (∀ n : Nat, streamBytes n (s.reading 129#8) =
      .ok ((List.range n).map fun k => memRead s.cfg s.nv (s.cfg.nvBase + k % 24))) ∧
    (∀ ch : Chan, ((List.range 6).map fun k => memRead s.cfg s.nv (s.cfg.nvBase + 6 * ch.val + k)) =
      [(s.trim ch .min).lo, (s.trim ch .min).hi, (s.trim ch .max).lo, (s.trim ch .max).hi, (s.trim ch .factor).lo,
       (s.trim ch .factor).hi]) ∧
    (∀ k : Fin 24, nvRead8 k s = if s.nvBusy then none else some (memRead s.cfg s.nv (s.cfg.nvBase + k.val))) ∧
    streamWaits (s.reading 129#8) = s.nvBusy

/-- `OPAQUE` stores its value; the reads that follow have no source: a free byte each, the cursor stays 0. The same while no command has been given
since reset, `MODE = None` (R231, R214, log 5). -/
def Obligations.OpaqueStoresAndYieldsNoSource : Prop :=
  ∀ (s : State) (c : Byte),
    encode (.opaqueMode c) = [c] ∧ exec (.opaqueMode c) s = .next { s with mode := some c } ∧
    ((Instr.opaqueMode c).wellFormed = true →
      streamByte (s.reading c) = .ok (Config.freeByte s.draws, { s.reading c with draws := s.draws + 1 })) ∧
    (s.mode = none → s.cursor = 0 → streamByte s = .ok (Config.freeByte s.draws, { s with draws := s.draws + 1 }))

/-! ## Store and calibration -/

/-- `NvWrite16`: low byte at the lower address, the other bytes as before, the write in flight and counted, the enable restored; every access
waits while a write is in flight, and the reads after its retirement return what was written, a word byte by byte (R10, R64, R65, R72). -/
def Obligations.StoreWriteThenRead : Prop :=
  ∀ (s : State) (w : Fin 12) (v : Word),
    (s.nvBusy = false → Memory.wf s.cfg s.nv = true →
      ∃ t : State, nvWrite16 w v s = some t ∧ storesWord s t w v ∧
        t = { s with nv := t.nv, nvBusy := true, nvWrites := s.nvWrites + 1 } ∧
        nvRead16 w t = (none, t) ∧
        nvRead8 (wordLo w) (retire t) = some v.lo ∧ nvRead8 (wordHi w) (retire t) = some v.hi ∧
        (s.lowByte = none → nvRead16 w (retire t) = (none, { retire t with lowByte := some v.lo })) ∧
        nvRead16 w { retire t with lowByte := some v.lo } = (some v, { retire t with lowByte := none })) ∧
    (s.nvBusy = true → nvWrite16 w v s = none ∧ nvRead16 w s = (none, s) ∧ ∀ k : Fin 24, nvRead8 k s = none)

/-- The corner commands store the two raw samples of their joystick, as they are when the command begins, in the field they name, and change
nothing else of the block but its leaving the access (R223, R224, R226, R227, R275), under the model's schedule in which no other agent moves
while the command runs (log 1, log 8). -/
def Obligations.CornerCommandsStoreBothSamples : Prop :=
  encode .calA1 = [0x20#8] ∧ encode .calB1 = [0x21#8] ∧ encode .calA2 = [0x23#8] ∧ encode .calB2 = [0x24#8] ∧
  ∀ s : State, commandReceived s = true → Memory.wf s.cfg s.nv = true →
    storesCorner 0x20#8 0 .min s ∧ storesCorner 0x21#8 0 .max s ∧ storesCorner 0x23#8 1 .min s ∧ storesCorner 0x24#8 1 .max s

/-- The corner commands, atomic step by atomic step, from each of their own values of `progress`, the writes on a canonical store (R10, R275,
R64). -/
def Obligations.CornerCommandSteps : Prop :=
  cornerSteps .calA1 0 .min ∧ cornerSteps .calB1 0 .max ∧ cornerSteps .calA2 1 .min ∧ cornerSteps .calB2 1 .max

/-- The recompute commands write the factor of each channel of their joystick only if it differs from the stored one (R225, R228, R276), a free
value where max is below min (R274, log 7), under the model's schedule in which no other agent moves (log 1, log 8). -/
def Obligations.RecomputeCommandsWriteOnlyChanges : Prop :=
  encode .calF1 = [0x22#8] ∧ encode .calF2 = [0x25#8] ∧
  ∀ s : State, commandReceived s = true → Memory.wf s.cfg s.nv = true →
    recomputesFactors 0x22#8 0 s ∧ recomputesFactors 0x25#8 1 s

/-- The recompute commands, atomic step by atomic step, from each of their own values of `progress`, the writes on a canonical store (R10,
R276, R64); the free factor of a reversed pair of corners is log 7. -/
def Obligations.RecomputeCommandSteps : Prop := recomputeSteps .calF1 0 ∧ recomputeSteps .calF2 1

/-- Calibration idempotence: recomputing again with unchanged corners writes nothing (R276, S3), for corners whose factor the spec states, under
the model's schedule in which no other agent moves (log 1, log 8). -/
def Obligations.RecomputeTwiceWritesOnce : Prop :=
  ∀ (s : State) (c : Byte) (j : Joystick), (c = 0x22#8 ∧ j = 0) ∨ (c = 0x25#8 ∧ j = 1) → commandReceived s = true →
    Memory.wf s.cfg s.nv = true →
    (s.trim (joystickX j) .min).toNat ≤ (s.trim (joystickX j) .max).toNat →
    (s.trim (joystickY j) .min).toNat ≤ (s.trim (joystickY j) .max).toNat →
    ∃ t u : State, runCommand c s = .next t ∧ runCommand c { t with busState := .writeTransfer } = .next u ∧
      u.nvWrites = t.nvWrites ∧ u.nv = t.nv

/-- The calibration scenario of R277 (S6): corner A, corner B at other samples, recompute, each run to its end as a command just received, under
the model's schedule in which no other agent moves (log 1, log 8). -/
def Obligations.CalibrationScenario : Prop :=
  ∀ s : State, commandReceived s = true → Memory.wf s.cfg s.nv = true → s.rawAt 0 = 100#16 → s.rawAt 1 = 120#16 →
    ∃ t u v : State, runCommand 0x20#8 s = .next t ∧
      runCommand 0x21#8 { t with busState := .writeTransfer, raw := #v[4000#16, 4100#16, t.rawAt 2, t.rawAt 3] } = .next u ∧
      runCommand 0x22#8 { u with busState := .writeTransfer } = .next v ∧
      v.trim 0 .min = 100#16 ∧ v.trim 0 .max = 4000#16 ∧ v.trim 0 .factor = 97#16 ∧
      v.trim 1 .min = 120#16 ∧ v.trim 1 .max = 4100#16 ∧ v.trim 1 .factor = 99#16

/-- While the main context waits for the store its steps change nothing, and the interrupts and the retirement take effect (R64, R66, R362). -/
def Obligations.StoreWaitAdmitsInterrupts : Prop :=
  ∀ (s : State) (m : Move) (ms : List Move), s.cfg.ok = true → s.asked = none → accessCoherent s = true → s.ie = true →
    storeWaits s = true → s.sched = m :: ms →
    (m = .dispatch ∨ m = .convert → step s = .next { s with sched := ms }) ∧
    (m = .retire → step s = .next { s with sched := ms, nvBusy := false }) ∧
    (m = .evD → compareDue s = false → step s = .next { evD s with sched := ms }) ∧
    (m = .tick → compareDue s = false → step s = .next { s with sched := ms, cnt := s.cnt + 1 }) ∧
    (m = .tick → evADue s = true → step s = .next (evA s)) ∧
    (m = .tick → evBDue s = true → step s = .next (evB s))

/-! ## Converter -/

/-- `Convert` in natural numbers: above the minimum the scaled distance plus 8, at most 255; below it the scaled distance taken from 8, at
least 0 (R268, R269); no stated value for the factor 0 (R270). -/
def Obligations.ConvertFormula : Prop :=
  (∀ (p : Params) (raw mn : Word), convertValue p raw mn 0 = none) ∧
  ∀ (p : Params) (raw mn f : Word), f ≠ 0 →
    let low := if p.convertSubtractMin then mn.toNat else 0
    ∃ b : Byte, convertValue p raw mn f = some b ∧
      b.toNat = if low ≤ raw.toNat then min 255 ((raw.toNat - low) * 6 / f.toNat + 8)
        else 8 - (low - raw.toNat) * 6 / f.toNat

/-- `Convert` with the scale factor of its corners stays in its range and is monotone in the sample (R271, S2), with the subtraction and without. -/
def Obligations.ConvertBoundedAndMonotone : Prop :=
  ∀ (p : Params) (mn mx f raw raw' : Word), mn.toNat < mx.toNat → mx.toNat ≤ p.captureLimit →
    scaleFactorValue mn mx = some f → f ≠ 0 →
    mn.toNat ≤ raw.toNat → raw.toNat ≤ raw'.toNat → raw'.toNat ≤ mx.toNat →
    ∃ b b' : Byte, convertValue p raw mn f = some b ∧ convertValue p raw' mn f = some b' ∧
      8 ≤ b.toNat ∧ b.toNat ≤ b'.toNat ∧ b'.toNat ≤ 255

/-- `ScaleFactor`: the scaled span over 240, never cut by the 16 bits, 0 exactly for a span below 40; no stated value when max is below min
(R274, R270). -/
def Obligations.ScaleFactorFormula : Prop :=
  ∀ mn mx : Word,
    (mn.toNat ≤ mx.toNat → ∃ f : Word, scaleFactorValue mn mx = some f ∧ f.toNat = (mx.toNat - mn.toNat) * 6 / 240 ∧
      f.toNat ≤ 1638 ∧ (f = 0 ↔ mx.toNat - mn.toNat < 40)) ∧
    (mx.toNat < mn.toNat → scaleFactorValue mn mx = none)

/-- `CONVERT`, no other agent moving: nothing fresh, nothing changes; a sample at or above the limit sets its flag and leaves its output; a sample
below it clears the flag and writes its output, a free value if the stored factor is 0 (log 6), from the stored minimum and factor, the
maximum being read too (R78, log 33); while a write is in flight the reads of the store wait (R266, R267, R270, R64, S1). -/
def Obligations.ConvertStepEffect : Prop :=
  ∀ (s : State) (ms : List Move), s.cfg.ok = true → s.asked = none →
    (s.main = .loop → s.updated = false → s.sched = .convert :: ms → step s = .next { s with sched := ms }) ∧
    (s.main = .loop → s.updated = true → s.cfg.captureLimit ≤ (s.rawAt s.ready).toNat →
      core.run 2 { s with sched := [.convert, .convert] } =
        .next { s with sched := [], updated := false, invalid := s.invalid ||| onehot s.ready }) ∧
    (s.main = .loop → s.updated = true → s.nvBusy = false → s.lowByte = none → (s.rawAt s.ready).toNat < s.cfg.captureLimit →
      core.run 9 { s with sched := List.replicate 9 .convert } =
        .next { s with
          sched := [], updated := false, invalid := s.invalid &&& ~~~ onehot s.ready,
          draws := if s.trim s.ready .factor = 0 then s.draws + 1 else s.draws,
          out := s.out.set s.ready
            ((convertValue s.cfg (s.rawAt s.ready) (s.trim s.ready .min) (s.trim s.ready .factor)).getD
              (Config.freeOutput s.draws)) }) ∧
    (∀ (ch : Chan) (r mn : Word), s.main = .convertMin ch r ∨ s.main = .convertMax ch r mn ∨ s.main = .convertFactor ch r mn →
      s.nvBusy = true → s.sched = .convert :: ms → step s = .next { s with sched := ms })

/-! ## CAP -/

/-- `TICK` (R123). -/
def Obligations.TickAdvancesCounter : Prop :=
  ∀ (s : State) (ms : List Move), s.cfg.ok = true → s.asked = none → s.ie = true → compareDue s = false → s.sched = .tick :: ms →
    step s = .next { s with sched := ms, cnt := s.cnt + 1 }

/-- `EV_B` (R124). -/
def Obligations.EvBStartsCharging : Prop :=
  ∀ (s : State) (ms : List Move), s.cfg.ok = true → s.asked = none → s.ie = true → s.phase = .discharging → s.cnt = s.ocb →
    s.sched = .tick :: ms →
    step s = .next { s with
      disch := false, drive := onehot s.next, t0 := s.cnt, capf := false,
      oca := s.cnt + BitVec.ofNat 16 s.cfg.captureLimit, ocb := s.cnt + BitVec.ofNat 16 s.cfg.scanPeriod,
      phase := .charging }

/-- `EV_A` (R126). -/
def Obligations.EvARecordsSample : Prop :=
  ∀ (s : State) (ms : List Move), s.cfg.ok = true → s.asked = none → s.ie = true → s.phase = .charging → s.cnt = s.oca →
    s.sched = .tick :: ms →
    step s = .next { s with
      raw := s.raw.set s.next (if s.capf then s.icr - s.t0 else 0xFFFF#16), ready := s.next, updated := true,
      drive := 0, disch := true, next := s.next + 1, phase := .discharging }

/-- `TRIP`: a rise of the comparator latches the counter once in a phase A and is ignored otherwise; a fall does nothing (R121, R125). -/
def Obligations.TripLatchesOnce : Prop :=
  ∀ (s : State) (level : Bool) (ms : List Move), s.cfg.ok = true → s.asked = none → s.ie = true → compareDue s = false →
    s.sched = .cmp level :: ms →
    ((level = true ∧ s.cmp = false ∧ s.phase = .charging ∧ s.capf = false) →
      step s = .next { s with sched := ms, cmp := level, icr := s.cnt, capf := true }) ∧
    (¬ (level = true ∧ s.cmp = false ∧ s.phase = .charging ∧ s.capf = false) →
      step s = .next { s with sched := ms, cmp := level })

/-- A compare event that is due precedes a further tick, any change of the comparator, a fall as well as a trip of the same tick, and a debounce tick;
the move stays next, and after the event, in a state of the invariant, no compare event is due (R122, R311, R313). That the event precedes a
fall of the comparator too and that the move stays scheduled is the model's own (log 10, DEDUCED). -/
def Obligations.CompareEventIsUrgent : Prop :=
  ∀ (s : State) (m : Move) (ms : List Move), s.cfg.ok = true → s.asked = none → CapInv s → s.ie = true → compareDue s = true →
    s.sched = m :: ms → (m = .tick ∨ m = .evD ∨ ∃ l, m = .cmp l) →
    ∃ t : State, step s = .next t ∧ t = compareEvent s ∧ t.sched = m :: ms ∧ compareDue t = false

/-- Cycle time: from the start of a charge, CAP alone reaches its phase-A deadline after exactly `CAPTURE_LIMIT` ticks and its phase-B deadline
after exactly `SCAN_PERIOD` ticks, with the next channel in turn (R128, R129). -/
def Obligations.ChannelCycleTime : Prop :=
  ∀ (s : State), s.cfg.ok = true → CapInv s → s.ie = true → s.phase = .charging → s.cnt = s.t0 →
    (∀ n : Nat, n ≤ s.cfg.captureLimit →
      (capTicks n s).phase = .charging ∧ (capTicks n s).next = s.next ∧
      (evADue (capTicks n s) = true ↔ n = s.cfg.captureLimit)) ∧
    (∀ n : Nat, s.cfg.captureLimit < n → n ≤ s.cfg.scanPeriod →
      (capTicks n s).phase = .discharging ∧ (capTicks n s).next = s.next + 1 ∧
      (evBDue (capTicks n s) = true ↔ n = s.cfg.scanPeriod))

/-! ## DEB -/

/-- `EV_D`: each button by its own input, bit and count (R252), nothing else. -/
def Obligations.DebounceTickEffect : Prop :=
  ∀ (s : State) (ms : List Move), s.cfg.ok = true → s.asked = none → s.ie = true → compareDue s = false → s.sched = .evD :: ms →
    ∃ t : State, step s = .next t ∧ t = { s with sched := ms, deb := t.deb, dbc := t.dbc } ∧
      ∀ i : Fin 4,
        let p := Bool.xor (s.btnIn.getLsbD i.val) s.cfg.btnActiveLow
        if p = s.deb.getLsbD i.val then t.dbc[i] = 0 ∧ t.deb.getLsbD i.val = s.deb.getLsbD i.val
        else if s.cfg.debThreshold ≤ s.dbc[i] + 1 then t.dbc[i] = 0 ∧ t.deb.getLsbD i.val = p
        else t.dbc[i] = s.dbc[i] + 1 ∧ t.deb.getLsbD i.val = s.deb.getLsbD i.val

/-- The law of the debounced bit: it changes at a tick only if the input has disagreed with it at that tick and at each of the
`DEB_THRESHOLD - 1` ticks before it; an input held for `DEB_THRESHOLD` ticks is followed (R254). -/
def Obligations.DebouncedBitLaw : Prop :=
  ∀ (s : State) (i : Fin 4) (ps : List (BitVec 4)) (p : BitVec 4), s.cfg.wf = true → s.ie = true →
    (s.dbc[i] = 0 → (debRun (ps ++ [p]) s).deb.getLsbD i.val ≠ (debRun ps s).deb.getLsbD i.val →
      s.cfg.debThreshold ≤ ps.length + 1 ∧
      ∀ q ∈ (ps ++ [p]).drop (ps.length + 1 - s.cfg.debThreshold),
        Bool.xor (q.getLsbD i.val) s.cfg.btnActiveLow ≠ (debRun ps s).deb.getLsbD i.val) ∧
    ((∀ q ∈ ps, Bool.xor (q.getLsbD i.val) s.cfg.btnActiveLow = Bool.xor (p.getLsbD i.val) s.cfg.btnActiveLow) →
      s.cfg.debThreshold ≤ ps.length →
      (debRun ps s).deb.getLsbD i.val = Bool.xor (p.getLsbD i.val) s.cfg.btnActiveLow)

/-! ## Contexts -/

/-- A step of an agent other than the main context leaves every element the main context owns as it was (R315, R320). -/
def Obligations.OtherAgentsLeaveMainContext : Prop :=
  ∀ (s t : State) (m : Move) (ms : List Move), s.sched = m :: ms → mainsMove m = false →
    compareFirst m s = true ∨ lowersClock m s = true ∨ mustWait m s = false → step s = .next t →
    MainFieldsSame s t ∧ t.nv = s.nv ∧ t.nvWrites = s.nvWrites ∧ t.draws = s.draws

/-- The two interrupt levels share no state: the order of a compare event and a debounce tick is not observable (R313). -/
def Obligations.InterruptLevelsCommute : Prop :=
  ∀ s : State, compareEvent (evD s) = evD (compareEvent s)

/-- A step of the main context changes nothing of CAP but clears `UPDATED`, and nothing of DEB (R130, R232, R320). -/
def Obligations.MainContextLeavesCapAndDeb : Prop :=
  ∀ (s t : State) (m : Move) (ms : List Move), s.sched = m :: ms → (m = .dispatch ∨ m = .convert) → step s = .next t →
    CapFieldsSame s t ∧ DebFieldsSame s t ∧ (t.updated = true → s.updated = true)

/-- What a command never does: no step of a command changes anything but the store, its own progress and `MODE`: `RAW`, `OUT`, `INVALID`, `DEB`
and the state of CAP, DEB and BUS stay as they are; only the calibration commands change the store, and they alone leave `MODE` (R232). -/
def Obligations.NoCommandTouchesSamplesOrOutputs : Prop :=
  ∀ (s : State) (c : Byte),
    ∃ t : State, exec (decodeCommand c) s = .next t ∧
      t = { s with
        nv := t.nv, nvBusy := t.nvBusy, nvWrites := t.nvWrites, draws := t.draws, mode := t.mode, progress := t.progress,
        lowByte := t.lowByte } ∧
      (if 32 ≤ c.toNat ∧ c.toNat ≤ 37 then t.mode = s.mode else t = { s with mode := some c })

/-! ## Reset, configuration, invariants -/

/-- The reset table (R340), for every configuration and every value of the registers it leaves unspecified. -/
def Obligations.ResetTable : Prop :=
  ∀ (p : Params) (d : ResetDraws) (nv : List Host.Cell),
    let s := State.resetWith p d nv
    s.cnt = 0 ∧ s.oca = BitVec.ofNat 16 p.captureLimit ∧ s.ocb = BitVec.ofNat 16 p.scanPeriod ∧ s.t0 = 0 ∧
      s.capf = false ∧ s.phase = .discharging ∧ s.next = 0 ∧ s.ready = 0 ∧ s.updated = false ∧
      s.drive = 0b0000#4 ∧ s.disch = true ∧ (∀ i : Fin 4, s.dbc[i] = 0) ∧ s.deb = 0b0000#4 ∧
      s.sdaPull = false ∧ s.sclPull = false ∧ s.bitcnt = 0 ∧ s.startF = false ∧ s.stopF = false ∧
      s.busState = .idle ∧ s.mode = none ∧ s.cursor = 0 ∧ s.nvBusy = false ∧ s.nvWrites = 0 ∧ s.ie = true ∧
      s.nv = nv ∧ (∀ u : State, State.restart d u = State.resetWith u.cfg d u.nv) ∧
      s.icr = d.icr ∧ s.raw = d.raw ∧ s.sr = d.sr ∧ s.matched = d.matched ∧ s.dir = d.dir ∧ s.snap = d.snap ∧
      s.out = d.out ∧ s.invalid = d.invalid ∧
      (∀ ch : Chan,
        let u := State.resetWith p d []
        u.trim ch .min = p.trimDefault[ch].minR ∧ u.trim ch .max = p.trimDefault[ch].maxR ∧
          u.trim ch .factor = p.trimDefault[ch].factor)

/-- The invariant holds after reset, whatever the unspecified registers hold and whatever the surviving store (R32, R340). -/
def Obligations.ResetMeetsInvariant : Prop :=
  ∀ (p : Params) (d : ResetDraws) (nv : List Host.Cell), p.ok = true → Memory.wf p nv = true →
    Inv (State.resetWith p d nv) ∧ quiescent (State.resetWith p d nv) = true

/-- Every step keeps the invariant (R32). -/
def Obligations.StepKeepsInvariant : Prop :=
  ∀ s t : State, Inv s → step s = .next t → Inv t

/-- A raw sample in range stays in range through every step, and the sample an `EV_A` writes is in range (R32 item 4, R126). -/
def Obligations.RawSamplesStayInRange : Prop :=
  ∀ s : State, Inv s →
    (∀ (t : State) (ch : Chan), RawInRange s ch → step s = .next t → RawInRange t ch) ∧
    (evADue s = true → RawInRange (evA s) s.next)

/-- There is no fatal path and no end of a run: from the invariant, in a configuration the block serves and with nothing out of scope asked for,
every state has a next state, scheduled or free, and every stream of the agents' moves gives an endless run inside the invariant (R12,
R304, R344). -/
def Obligations.NoFatalPath : Prop :=
  ∀ s : State, Inv s → s.cfg.ok = true → s.asked = none →
    (∃ t : State, step s = .next t) ∧
    ∀ (ms : Nat → Move) (n : Nat),
      Inv (runOn ms s n) ∧ step { runOn ms s n with sched := [ms n] } = .next (runOn ms s (n + 1))

/-- In a fair run every channel is sampled again and again, in turn: its `EV_A` comes due and is taken, and leaves its sample, the elapsed count or
the sentinel, as the fresh one (R343, R344, R126, R128, R129). -/
def Obligations.FairRunsSampleEveryChannel : Prop :=
  ∀ (ms : Nat → Move) (s : State), Inv s → s.cfg.ok = true → s.asked = none → FairRun ms s →
    ∀ (ch : Chan) (n : Nat), ∃ k : Nat, n ≤ k ∧
      let before := runOn ms s k
      let after := runOn ms s (k + 1)
      evADue before = true ∧ before.next = ch ∧
        after.rawAt ch = (if before.capf then before.icr - before.t0 else 0xFFFF#16) ∧ after.ready = ch ∧ after.updated = true ∧
        after.phase = .discharging ∧ after.next = ch + 1

/-- The configurations and operations the scope leaves out are refused by name (R5, R8, R164). -/
def Obligations.OutOfScopeIsRefused : Prop :=
  ∀ (s : State),
    (s.cfg.backend = .softwareBitbang → step s = .refused .softwareBitbangSlave) ∧
    (s.cfg.backend ≠ .softwareBitbang → s.cfg.wf = false → step s = .refused .illFormedConfig) ∧
    (∀ op : ExcludedOp, s.cfg.ok = true → s.asked = some op → step s = .refused (.excluded op))
end

