-- ==== Sys2Proof/Laws/State.lean ====
section
/-! SUPPORT. One lemma per field for each plain update of the state: what the field is after it. -/

namespace Sys2Proof.Machine

variable (s : State)

/-! ### `selectMode` -/

@[simp] theorem selectMode_cfg (c : Byte) : (selectMode c s).cfg = s.cfg := rfl
@[simp] theorem selectMode_cnt (c : Byte) : (selectMode c s).cnt = s.cnt := rfl
@[simp] theorem selectMode_oca (c : Byte) : (selectMode c s).oca = s.oca := rfl
@[simp] theorem selectMode_ocb (c : Byte) : (selectMode c s).ocb = s.ocb := rfl
@[simp] theorem selectMode_t0 (c : Byte) : (selectMode c s).t0 = s.t0 := rfl
@[simp] theorem selectMode_icr (c : Byte) : (selectMode c s).icr = s.icr := rfl
@[simp] theorem selectMode_capf (c : Byte) : (selectMode c s).capf = s.capf := rfl
@[simp] theorem selectMode_phase (c : Byte) : (selectMode c s).phase = s.phase := rfl
@[simp] theorem selectMode_next (c : Byte) : (selectMode c s).next = s.next := rfl
@[simp] theorem selectMode_ready (c : Byte) : (selectMode c s).ready = s.ready := rfl
@[simp] theorem selectMode_updated (c : Byte) : (selectMode c s).updated = s.updated := rfl
@[simp] theorem selectMode_raw (c : Byte) : (selectMode c s).raw = s.raw := rfl
@[simp] theorem selectMode_drive (c : Byte) : (selectMode c s).drive = s.drive := rfl
@[simp] theorem selectMode_disch (c : Byte) : (selectMode c s).disch = s.disch := rfl
@[simp] theorem selectMode_dbc (c : Byte) : (selectMode c s).dbc = s.dbc := rfl
@[simp] theorem selectMode_deb (c : Byte) : (selectMode c s).deb = s.deb := rfl
@[simp] theorem selectMode_sdaPull (c : Byte) : (selectMode c s).sdaPull = s.sdaPull := rfl
@[simp] theorem selectMode_sclPull (c : Byte) : (selectMode c s).sclPull = s.sclPull := rfl
@[simp] theorem selectMode_sr (c : Byte) : (selectMode c s).sr = s.sr := rfl
@[simp] theorem selectMode_bitcnt (c : Byte) : (selectMode c s).bitcnt = s.bitcnt := rfl
@[simp] theorem selectMode_startF (c : Byte) : (selectMode c s).startF = s.startF := rfl
@[simp] theorem selectMode_stopF (c : Byte) : (selectMode c s).stopF = s.stopF := rfl
@[simp] theorem selectMode_busState (c : Byte) : (selectMode c s).busState = s.busState := rfl
@[simp] theorem selectMode_matched (c : Byte) : (selectMode c s).matched = s.matched := rfl
@[simp] theorem selectMode_dir (c : Byte) : (selectMode c s).dir = s.dir := rfl
@[simp] theorem selectMode_mode (c : Byte) : (selectMode c s).mode = some c := rfl
@[simp] theorem selectMode_cursor (c : Byte) : (selectMode c s).cursor = s.cursor := rfl
@[simp] theorem selectMode_snap (c : Byte) : (selectMode c s).snap = s.snap := rfl
@[simp] theorem selectMode_out (c : Byte) : (selectMode c s).out = s.out := rfl
@[simp] theorem selectMode_invalid (c : Byte) : (selectMode c s).invalid = s.invalid := rfl
@[simp] theorem selectMode_nv (c : Byte) : (selectMode c s).nv = s.nv := rfl
@[simp] theorem selectMode_nvBusy (c : Byte) : (selectMode c s).nvBusy = s.nvBusy := rfl
@[simp] theorem selectMode_nvWrites (c : Byte) : (selectMode c s).nvWrites = s.nvWrites := rfl
@[simp] theorem selectMode_ie (c : Byte) : (selectMode c s).ie = s.ie := rfl
@[simp] theorem selectMode_xfer (c : Byte) : (selectMode c s).xfer = s.xfer := rfl
@[simp] theorem selectMode_main (c : Byte) : (selectMode c s).main = s.main := rfl
@[simp] theorem selectMode_progress (c : Byte) : (selectMode c s).progress = s.progress := rfl
@[simp] theorem selectMode_lowByte (c : Byte) : (selectMode c s).lowByte = s.lowByte := rfl
@[simp] theorem selectMode_cmp (c : Byte) : (selectMode c s).cmp = s.cmp := rfl
@[simp] theorem selectMode_btnIn (c : Byte) : (selectMode c s).btnIn = s.btnIn := rfl
@[simp] theorem selectMode_peerSda (c : Byte) : (selectMode c s).peerSda = s.peerSda := rfl
@[simp] theorem selectMode_peerScl (c : Byte) : (selectMode c s).peerScl = s.peerScl := rfl
@[simp] theorem selectMode_hostSaw (c : Byte) : (selectMode c s).hostSaw = s.hostSaw := rfl
@[simp] theorem selectMode_sched (c : Byte) : (selectMode c s).sched = s.sched := rfl
@[simp] theorem selectMode_draws (c : Byte) : (selectMode c s).draws = s.draws := rfl
@[simp] theorem selectMode_asked (c : Byte) : (selectMode c s).asked = s.asked := rfl

/-! ### `retire` -/

@[simp] theorem retire_cfg : (retire s).cfg = s.cfg := rfl
@[simp] theorem retire_cnt : (retire s).cnt = s.cnt := rfl
@[simp] theorem retire_oca : (retire s).oca = s.oca := rfl
@[simp] theorem retire_ocb : (retire s).ocb = s.ocb := rfl
@[simp] theorem retire_t0 : (retire s).t0 = s.t0 := rfl
@[simp] theorem retire_icr : (retire s).icr = s.icr := rfl
@[simp] theorem retire_capf : (retire s).capf = s.capf := rfl
@[simp] theorem retire_phase : (retire s).phase = s.phase := rfl
@[simp] theorem retire_next : (retire s).next = s.next := rfl
@[simp] theorem retire_ready : (retire s).ready = s.ready := rfl
@[simp] theorem retire_updated : (retire s).updated = s.updated := rfl
@[simp] theorem retire_raw : (retire s).raw = s.raw := rfl
@[simp] theorem retire_drive : (retire s).drive = s.drive := rfl
@[simp] theorem retire_disch : (retire s).disch = s.disch := rfl
@[simp] theorem retire_dbc : (retire s).dbc = s.dbc := rfl
@[simp] theorem retire_deb : (retire s).deb = s.deb := rfl
@[simp] theorem retire_sdaPull : (retire s).sdaPull = s.sdaPull := rfl
@[simp] theorem retire_sclPull : (retire s).sclPull = s.sclPull := rfl
@[simp] theorem retire_sr : (retire s).sr = s.sr := rfl
@[simp] theorem retire_bitcnt : (retire s).bitcnt = s.bitcnt := rfl
@[simp] theorem retire_startF : (retire s).startF = s.startF := rfl
@[simp] theorem retire_stopF : (retire s).stopF = s.stopF := rfl
@[simp] theorem retire_busState : (retire s).busState = s.busState := rfl
@[simp] theorem retire_matched : (retire s).matched = s.matched := rfl
@[simp] theorem retire_dir : (retire s).dir = s.dir := rfl
@[simp] theorem retire_mode : (retire s).mode = s.mode := rfl
@[simp] theorem retire_cursor : (retire s).cursor = s.cursor := rfl
@[simp] theorem retire_snap : (retire s).snap = s.snap := rfl
@[simp] theorem retire_out : (retire s).out = s.out := rfl
@[simp] theorem retire_invalid : (retire s).invalid = s.invalid := rfl
@[simp] theorem retire_nv : (retire s).nv = s.nv := rfl
@[simp] theorem retire_nvBusy : (retire s).nvBusy = false := rfl
@[simp] theorem retire_nvWrites : (retire s).nvWrites = s.nvWrites := rfl
@[simp] theorem retire_ie : (retire s).ie = s.ie := rfl
@[simp] theorem retire_xfer : (retire s).xfer = s.xfer := rfl
@[simp] theorem retire_main : (retire s).main = s.main := rfl
@[simp] theorem retire_progress : (retire s).progress = s.progress := rfl
@[simp] theorem retire_lowByte : (retire s).lowByte = s.lowByte := rfl
@[simp] theorem retire_cmp : (retire s).cmp = s.cmp := rfl
@[simp] theorem retire_btnIn : (retire s).btnIn = s.btnIn := rfl
@[simp] theorem retire_peerSda : (retire s).peerSda = s.peerSda := rfl
@[simp] theorem retire_peerScl : (retire s).peerScl = s.peerScl := rfl
@[simp] theorem retire_hostSaw : (retire s).hostSaw = s.hostSaw := rfl
@[simp] theorem retire_sched : (retire s).sched = s.sched := rfl
@[simp] theorem retire_draws : (retire s).draws = s.draws := rfl
@[simp] theorem retire_asked : (retire s).asked = s.asked := rfl

/-! ### `nvCommit` -/

@[simp] theorem nvCommit_cfg (w : Fin 12) (v : Word) : (nvCommit w v s).cfg = s.cfg := rfl
@[simp] theorem nvCommit_cnt (w : Fin 12) (v : Word) : (nvCommit w v s).cnt = s.cnt := rfl
@[simp] theorem nvCommit_oca (w : Fin 12) (v : Word) : (nvCommit w v s).oca = s.oca := rfl
@[simp] theorem nvCommit_ocb (w : Fin 12) (v : Word) : (nvCommit w v s).ocb = s.ocb := rfl
@[simp] theorem nvCommit_t0 (w : Fin 12) (v : Word) : (nvCommit w v s).t0 = s.t0 := rfl
@[simp] theorem nvCommit_icr (w : Fin 12) (v : Word) : (nvCommit w v s).icr = s.icr := rfl
@[simp] theorem nvCommit_capf (w : Fin 12) (v : Word) : (nvCommit w v s).capf = s.capf := rfl
@[simp] theorem nvCommit_phase (w : Fin 12) (v : Word) : (nvCommit w v s).phase = s.phase := rfl
@[simp] theorem nvCommit_next (w : Fin 12) (v : Word) : (nvCommit w v s).next = s.next := rfl
@[simp] theorem nvCommit_ready (w : Fin 12) (v : Word) : (nvCommit w v s).ready = s.ready := rfl
@[simp] theorem nvCommit_updated (w : Fin 12) (v : Word) : (nvCommit w v s).updated = s.updated := rfl
@[simp] theorem nvCommit_raw (w : Fin 12) (v : Word) : (nvCommit w v s).raw = s.raw := rfl
@[simp] theorem nvCommit_drive (w : Fin 12) (v : Word) : (nvCommit w v s).drive = s.drive := rfl
@[simp] theorem nvCommit_disch (w : Fin 12) (v : Word) : (nvCommit w v s).disch = s.disch := rfl
@[simp] theorem nvCommit_dbc (w : Fin 12) (v : Word) : (nvCommit w v s).dbc = s.dbc := rfl
@[simp] theorem nvCommit_deb (w : Fin 12) (v : Word) : (nvCommit w v s).deb = s.deb := rfl
@[simp] theorem nvCommit_sdaPull (w : Fin 12) (v : Word) : (nvCommit w v s).sdaPull = s.sdaPull := rfl
@[simp] theorem nvCommit_sclPull (w : Fin 12) (v : Word) : (nvCommit w v s).sclPull = s.sclPull := rfl
@[simp] theorem nvCommit_sr (w : Fin 12) (v : Word) : (nvCommit w v s).sr = s.sr := rfl
@[simp] theorem nvCommit_bitcnt (w : Fin 12) (v : Word) : (nvCommit w v s).bitcnt = s.bitcnt := rfl
@[simp] theorem nvCommit_startF (w : Fin 12) (v : Word) : (nvCommit w v s).startF = s.startF := rfl
@[simp] theorem nvCommit_stopF (w : Fin 12) (v : Word) : (nvCommit w v s).stopF = s.stopF := rfl
@[simp] theorem nvCommit_busState (w : Fin 12) (v : Word) : (nvCommit w v s).busState = s.busState := rfl
@[simp] theorem nvCommit_matched (w : Fin 12) (v : Word) : (nvCommit w v s).matched = s.matched := rfl
@[simp] theorem nvCommit_dir (w : Fin 12) (v : Word) : (nvCommit w v s).dir = s.dir := rfl
@[simp] theorem nvCommit_mode (w : Fin 12) (v : Word) : (nvCommit w v s).mode = s.mode := rfl
@[simp] theorem nvCommit_cursor (w : Fin 12) (v : Word) : (nvCommit w v s).cursor = s.cursor := rfl
@[simp] theorem nvCommit_snap (w : Fin 12) (v : Word) : (nvCommit w v s).snap = s.snap := rfl
@[simp] theorem nvCommit_out (w : Fin 12) (v : Word) : (nvCommit w v s).out = s.out := rfl
@[simp] theorem nvCommit_invalid (w : Fin 12) (v : Word) : (nvCommit w v s).invalid = s.invalid := rfl
@[simp] theorem nvCommit_nv (w : Fin 12) (v : Word) : (nvCommit w v s).nv = memWrite s.cfg (memWrite s.cfg s.nv (nvAddr s.cfg (wordLo w)) v.lo) (nvAddr s.cfg (wordHi w)) v.hi := rfl
@[simp] theorem nvCommit_nvBusy (w : Fin 12) (v : Word) : (nvCommit w v s).nvBusy = true := rfl
@[simp] theorem nvCommit_nvWrites (w : Fin 12) (v : Word) : (nvCommit w v s).nvWrites = s.nvWrites + 1 := rfl
@[simp] theorem nvCommit_ie (w : Fin 12) (v : Word) : (nvCommit w v s).ie = s.ie := rfl
@[simp] theorem nvCommit_xfer (w : Fin 12) (v : Word) : (nvCommit w v s).xfer = s.xfer := rfl
@[simp] theorem nvCommit_main (w : Fin 12) (v : Word) : (nvCommit w v s).main = s.main := rfl
@[simp] theorem nvCommit_progress (w : Fin 12) (v : Word) : (nvCommit w v s).progress = s.progress := rfl
@[simp] theorem nvCommit_lowByte (w : Fin 12) (v : Word) : (nvCommit w v s).lowByte = s.lowByte := rfl
@[simp] theorem nvCommit_cmp (w : Fin 12) (v : Word) : (nvCommit w v s).cmp = s.cmp := rfl
@[simp] theorem nvCommit_btnIn (w : Fin 12) (v : Word) : (nvCommit w v s).btnIn = s.btnIn := rfl
@[simp] theorem nvCommit_peerSda (w : Fin 12) (v : Word) : (nvCommit w v s).peerSda = s.peerSda := rfl
@[simp] theorem nvCommit_peerScl (w : Fin 12) (v : Word) : (nvCommit w v s).peerScl = s.peerScl := rfl
@[simp] theorem nvCommit_hostSaw (w : Fin 12) (v : Word) : (nvCommit w v s).hostSaw = s.hostSaw := rfl
@[simp] theorem nvCommit_sched (w : Fin 12) (v : Word) : (nvCommit w v s).sched = s.sched := rfl
@[simp] theorem nvCommit_draws (w : Fin 12) (v : Word) : (nvCommit w v s).draws = s.draws := rfl
@[simp] theorem nvCommit_asked (w : Fin 12) (v : Word) : (nvCommit w v s).asked = s.asked := rfl

/-! ### `evA` -/

@[simp] theorem evA_cfg : (evA s).cfg = s.cfg := rfl
@[simp] theorem evA_cnt : (evA s).cnt = s.cnt := rfl
@[simp] theorem evA_oca : (evA s).oca = s.oca := rfl
@[simp] theorem evA_ocb : (evA s).ocb = s.ocb := rfl
@[simp] theorem evA_t0 : (evA s).t0 = s.t0 := rfl
@[simp] theorem evA_icr : (evA s).icr = s.icr := rfl
@[simp] theorem evA_capf : (evA s).capf = s.capf := rfl
@[simp] theorem evA_phase : (evA s).phase = .discharging := rfl
@[simp] theorem evA_next : (evA s).next = s.next + 1 := rfl
@[simp] theorem evA_ready : (evA s).ready = s.next := rfl
@[simp] theorem evA_updated : (evA s).updated = true := rfl
@[simp] theorem evA_raw : (evA s).raw = s.raw.set s.next (sampleTaken s) := rfl
@[simp] theorem evA_drive : (evA s).drive = 0 := rfl
@[simp] theorem evA_disch : (evA s).disch = true := rfl
@[simp] theorem evA_dbc : (evA s).dbc = s.dbc := rfl
@[simp] theorem evA_deb : (evA s).deb = s.deb := rfl
@[simp] theorem evA_sdaPull : (evA s).sdaPull = s.sdaPull := rfl
@[simp] theorem evA_sclPull : (evA s).sclPull = s.sclPull := rfl
@[simp] theorem evA_sr : (evA s).sr = s.sr := rfl
@[simp] theorem evA_bitcnt : (evA s).bitcnt = s.bitcnt := rfl
@[simp] theorem evA_startF : (evA s).startF = s.startF := rfl
@[simp] theorem evA_stopF : (evA s).stopF = s.stopF := rfl
@[simp] theorem evA_busState : (evA s).busState = s.busState := rfl
@[simp] theorem evA_matched : (evA s).matched = s.matched := rfl
@[simp] theorem evA_dir : (evA s).dir = s.dir := rfl
@[simp] theorem evA_mode : (evA s).mode = s.mode := rfl
@[simp] theorem evA_cursor : (evA s).cursor = s.cursor := rfl
@[simp] theorem evA_snap : (evA s).snap = s.snap := rfl
@[simp] theorem evA_out : (evA s).out = s.out := rfl
@[simp] theorem evA_invalid : (evA s).invalid = s.invalid := rfl
@[simp] theorem evA_nv : (evA s).nv = s.nv := rfl
@[simp] theorem evA_nvBusy : (evA s).nvBusy = s.nvBusy := rfl
@[simp] theorem evA_nvWrites : (evA s).nvWrites = s.nvWrites := rfl
@[simp] theorem evA_ie : (evA s).ie = s.ie := rfl
@[simp] theorem evA_xfer : (evA s).xfer = s.xfer := rfl
@[simp] theorem evA_main : (evA s).main = s.main := rfl
@[simp] theorem evA_progress : (evA s).progress = s.progress := rfl
@[simp] theorem evA_lowByte : (evA s).lowByte = s.lowByte := rfl
@[simp] theorem evA_cmp : (evA s).cmp = s.cmp := rfl
@[simp] theorem evA_btnIn : (evA s).btnIn = s.btnIn := rfl
@[simp] theorem evA_peerSda : (evA s).peerSda = s.peerSda := rfl
@[simp] theorem evA_peerScl : (evA s).peerScl = s.peerScl := rfl
@[simp] theorem evA_hostSaw : (evA s).hostSaw = s.hostSaw := rfl
@[simp] theorem evA_sched : (evA s).sched = s.sched := rfl
@[simp] theorem evA_draws : (evA s).draws = s.draws := rfl
@[simp] theorem evA_asked : (evA s).asked = s.asked := rfl

/-! ### `evB` -/

@[simp] theorem evB_cfg : (evB s).cfg = s.cfg := rfl
@[simp] theorem evB_cnt : (evB s).cnt = s.cnt := rfl
@[simp] theorem evB_oca : (evB s).oca = s.cnt + BitVec.ofNat 16 s.cfg.captureLimit := rfl
@[simp] theorem evB_ocb : (evB s).ocb = s.cnt + BitVec.ofNat 16 s.cfg.scanPeriod := rfl
@[simp] theorem evB_t0 : (evB s).t0 = s.cnt := rfl
@[simp] theorem evB_icr : (evB s).icr = s.icr := rfl
@[simp] theorem evB_capf : (evB s).capf = false := rfl
@[simp] theorem evB_phase : (evB s).phase = .charging := rfl
@[simp] theorem evB_next : (evB s).next = s.next := rfl
@[simp] theorem evB_ready : (evB s).ready = s.ready := rfl
@[simp] theorem evB_updated : (evB s).updated = s.updated := rfl
@[simp] theorem evB_raw : (evB s).raw = s.raw := rfl
@[simp] theorem evB_drive : (evB s).drive = onehot s.next := rfl
@[simp] theorem evB_disch : (evB s).disch = false := rfl
@[simp] theorem evB_dbc : (evB s).dbc = s.dbc := rfl
@[simp] theorem evB_deb : (evB s).deb = s.deb := rfl
@[simp] theorem evB_sdaPull : (evB s).sdaPull = s.sdaPull := rfl
@[simp] theorem evB_sclPull : (evB s).sclPull = s.sclPull := rfl
@[simp] theorem evB_sr : (evB s).sr = s.sr := rfl
@[simp] theorem evB_bitcnt : (evB s).bitcnt = s.bitcnt := rfl
@[simp] theorem evB_startF : (evB s).startF = s.startF := rfl
@[simp] theorem evB_stopF : (evB s).stopF = s.stopF := rfl
@[simp] theorem evB_busState : (evB s).busState = s.busState := rfl
@[simp] theorem evB_matched : (evB s).matched = s.matched := rfl
@[simp] theorem evB_dir : (evB s).dir = s.dir := rfl
@[simp] theorem evB_mode : (evB s).mode = s.mode := rfl
@[simp] theorem evB_cursor : (evB s).cursor = s.cursor := rfl
@[simp] theorem evB_snap : (evB s).snap = s.snap := rfl
@[simp] theorem evB_out : (evB s).out = s.out := rfl
@[simp] theorem evB_invalid : (evB s).invalid = s.invalid := rfl
@[simp] theorem evB_nv : (evB s).nv = s.nv := rfl
@[simp] theorem evB_nvBusy : (evB s).nvBusy = s.nvBusy := rfl
@[simp] theorem evB_nvWrites : (evB s).nvWrites = s.nvWrites := rfl
@[simp] theorem evB_ie : (evB s).ie = s.ie := rfl
@[simp] theorem evB_xfer : (evB s).xfer = s.xfer := rfl
@[simp] theorem evB_main : (evB s).main = s.main := rfl
@[simp] theorem evB_progress : (evB s).progress = s.progress := rfl
@[simp] theorem evB_lowByte : (evB s).lowByte = s.lowByte := rfl
@[simp] theorem evB_cmp : (evB s).cmp = s.cmp := rfl
@[simp] theorem evB_btnIn : (evB s).btnIn = s.btnIn := rfl
@[simp] theorem evB_peerSda : (evB s).peerSda = s.peerSda := rfl
@[simp] theorem evB_peerScl : (evB s).peerScl = s.peerScl := rfl
@[simp] theorem evB_hostSaw : (evB s).hostSaw = s.hostSaw := rfl
@[simp] theorem evB_sched : (evB s).sched = s.sched := rfl
@[simp] theorem evB_draws : (evB s).draws = s.draws := rfl
@[simp] theorem evB_asked : (evB s).asked = s.asked := rfl

/-! ### `clearStop` -/

@[simp] theorem clearStop_cfg : (clearStop s).cfg = s.cfg := rfl
@[simp] theorem clearStop_cnt : (clearStop s).cnt = s.cnt := rfl
@[simp] theorem clearStop_oca : (clearStop s).oca = s.oca := rfl
@[simp] theorem clearStop_ocb : (clearStop s).ocb = s.ocb := rfl
@[simp] theorem clearStop_t0 : (clearStop s).t0 = s.t0 := rfl
@[simp] theorem clearStop_icr : (clearStop s).icr = s.icr := rfl
@[simp] theorem clearStop_capf : (clearStop s).capf = s.capf := rfl
@[simp] theorem clearStop_phase : (clearStop s).phase = s.phase := rfl
@[simp] theorem clearStop_next : (clearStop s).next = s.next := rfl
@[simp] theorem clearStop_ready : (clearStop s).ready = s.ready := rfl
@[simp] theorem clearStop_updated : (clearStop s).updated = s.updated := rfl
@[simp] theorem clearStop_raw : (clearStop s).raw = s.raw := rfl
@[simp] theorem clearStop_drive : (clearStop s).drive = s.drive := rfl
@[simp] theorem clearStop_disch : (clearStop s).disch = s.disch := rfl
@[simp] theorem clearStop_dbc : (clearStop s).dbc = s.dbc := rfl
@[simp] theorem clearStop_deb : (clearStop s).deb = s.deb := rfl
@[simp] theorem clearStop_sdaPull : (clearStop s).sdaPull = s.sdaPull := rfl
@[simp] theorem clearStop_sclPull : (clearStop s).sclPull = s.sclPull := rfl
@[simp] theorem clearStop_sr : (clearStop s).sr = s.sr := rfl
@[simp] theorem clearStop_bitcnt : (clearStop s).bitcnt = s.bitcnt := rfl
@[simp] theorem clearStop_startF : (clearStop s).startF = s.startF := rfl
@[simp] theorem clearStop_stopF : (clearStop s).stopF = false := rfl
@[simp] theorem clearStop_busState : (clearStop s).busState = s.busState := rfl
@[simp] theorem clearStop_matched : (clearStop s).matched = s.matched := rfl
@[simp] theorem clearStop_dir : (clearStop s).dir = s.dir := rfl
@[simp] theorem clearStop_mode : (clearStop s).mode = s.mode := rfl
@[simp] theorem clearStop_cursor : (clearStop s).cursor = s.cursor := rfl
@[simp] theorem clearStop_snap : (clearStop s).snap = s.snap := rfl
@[simp] theorem clearStop_out : (clearStop s).out = s.out := rfl
@[simp] theorem clearStop_invalid : (clearStop s).invalid = s.invalid := rfl
@[simp] theorem clearStop_nv : (clearStop s).nv = s.nv := rfl
@[simp] theorem clearStop_nvBusy : (clearStop s).nvBusy = s.nvBusy := rfl
@[simp] theorem clearStop_nvWrites : (clearStop s).nvWrites = s.nvWrites := rfl
@[simp] theorem clearStop_ie : (clearStop s).ie = s.ie := rfl
@[simp] theorem clearStop_xfer : (clearStop s).xfer = s.xfer := rfl
@[simp] theorem clearStop_main : (clearStop s).main = s.main := rfl
@[simp] theorem clearStop_progress : (clearStop s).progress = s.progress := rfl
@[simp] theorem clearStop_lowByte : (clearStop s).lowByte = s.lowByte := rfl
@[simp] theorem clearStop_cmp : (clearStop s).cmp = s.cmp := rfl
@[simp] theorem clearStop_btnIn : (clearStop s).btnIn = s.btnIn := rfl
@[simp] theorem clearStop_peerSda : (clearStop s).peerSda = s.peerSda := rfl
@[simp] theorem clearStop_peerScl : (clearStop s).peerScl = s.peerScl := rfl
@[simp] theorem clearStop_hostSaw : (clearStop s).hostSaw = s.hostSaw := rfl
@[simp] theorem clearStop_sched : (clearStop s).sched = s.sched := rfl
@[simp] theorem clearStop_draws : (clearStop s).draws = s.draws := rfl
@[simp] theorem clearStop_asked : (clearStop s).asked = s.asked := rfl

/-! ### `loadByte` -/

@[simp] theorem loadByte_cfg (b : Byte) : (loadByte b s).cfg = s.cfg := rfl
@[simp] theorem loadByte_cnt (b : Byte) : (loadByte b s).cnt = s.cnt := rfl
@[simp] theorem loadByte_oca (b : Byte) : (loadByte b s).oca = s.oca := rfl
@[simp] theorem loadByte_ocb (b : Byte) : (loadByte b s).ocb = s.ocb := rfl
@[simp] theorem loadByte_t0 (b : Byte) : (loadByte b s).t0 = s.t0 := rfl
@[simp] theorem loadByte_icr (b : Byte) : (loadByte b s).icr = s.icr := rfl
@[simp] theorem loadByte_capf (b : Byte) : (loadByte b s).capf = s.capf := rfl
@[simp] theorem loadByte_phase (b : Byte) : (loadByte b s).phase = s.phase := rfl
@[simp] theorem loadByte_next (b : Byte) : (loadByte b s).next = s.next := rfl
@[simp] theorem loadByte_ready (b : Byte) : (loadByte b s).ready = s.ready := rfl
@[simp] theorem loadByte_updated (b : Byte) : (loadByte b s).updated = s.updated := rfl
@[simp] theorem loadByte_raw (b : Byte) : (loadByte b s).raw = s.raw := rfl
@[simp] theorem loadByte_drive (b : Byte) : (loadByte b s).drive = s.drive := rfl
@[simp] theorem loadByte_disch (b : Byte) : (loadByte b s).disch = s.disch := rfl
@[simp] theorem loadByte_dbc (b : Byte) : (loadByte b s).dbc = s.dbc := rfl
@[simp] theorem loadByte_deb (b : Byte) : (loadByte b s).deb = s.deb := rfl
@[simp] theorem loadByte_sdaPull (b : Byte) : (loadByte b s).sdaPull = s.sdaPull := rfl
@[simp] theorem loadByte_sclPull (b : Byte) : (loadByte b s).sclPull = s.sclPull := rfl
@[simp] theorem loadByte_sr (b : Byte) : (loadByte b s).sr = b := rfl
@[simp] theorem loadByte_bitcnt (b : Byte) : (loadByte b s).bitcnt = s.bitcnt := rfl
@[simp] theorem loadByte_startF (b : Byte) : (loadByte b s).startF = s.startF := rfl
@[simp] theorem loadByte_stopF (b : Byte) : (loadByte b s).stopF = s.stopF := rfl
@[simp] theorem loadByte_busState (b : Byte) : (loadByte b s).busState = s.busState := rfl
@[simp] theorem loadByte_matched (b : Byte) : (loadByte b s).matched = s.matched := rfl
@[simp] theorem loadByte_dir (b : Byte) : (loadByte b s).dir = s.dir := rfl
@[simp] theorem loadByte_mode (b : Byte) : (loadByte b s).mode = s.mode := rfl
@[simp] theorem loadByte_cursor (b : Byte) : (loadByte b s).cursor = s.cursor := rfl
@[simp] theorem loadByte_snap (b : Byte) : (loadByte b s).snap = s.snap := rfl
@[simp] theorem loadByte_out (b : Byte) : (loadByte b s).out = s.out := rfl
@[simp] theorem loadByte_invalid (b : Byte) : (loadByte b s).invalid = s.invalid := rfl
@[simp] theorem loadByte_nv (b : Byte) : (loadByte b s).nv = s.nv := rfl
@[simp] theorem loadByte_nvBusy (b : Byte) : (loadByte b s).nvBusy = s.nvBusy := rfl
@[simp] theorem loadByte_nvWrites (b : Byte) : (loadByte b s).nvWrites = s.nvWrites := rfl
@[simp] theorem loadByte_ie (b : Byte) : (loadByte b s).ie = s.ie := rfl
@[simp] theorem loadByte_xfer (b : Byte) : (loadByte b s).xfer = s.xfer := rfl
@[simp] theorem loadByte_main (b : Byte) : (loadByte b s).main = s.main := rfl
@[simp] theorem loadByte_progress (b : Byte) : (loadByte b s).progress = s.progress := rfl
@[simp] theorem loadByte_lowByte (b : Byte) : (loadByte b s).lowByte = s.lowByte := rfl
@[simp] theorem loadByte_cmp (b : Byte) : (loadByte b s).cmp = s.cmp := rfl
@[simp] theorem loadByte_btnIn (b : Byte) : (loadByte b s).btnIn = s.btnIn := rfl
@[simp] theorem loadByte_peerSda (b : Byte) : (loadByte b s).peerSda = s.peerSda := rfl
@[simp] theorem loadByte_peerScl (b : Byte) : (loadByte b s).peerScl = s.peerScl := rfl
@[simp] theorem loadByte_hostSaw (b : Byte) : (loadByte b s).hostSaw = s.hostSaw := rfl
@[simp] theorem loadByte_sched (b : Byte) : (loadByte b s).sched = s.sched := rfl
@[simp] theorem loadByte_draws (b : Byte) : (loadByte b s).draws = s.draws := rfl
@[simp] theorem loadByte_asked (b : Byte) : (loadByte b s).asked = s.asked := rfl

/-! ### `loadCount` -/

@[simp] theorem loadCount_cfg : (loadCount s).cfg = s.cfg := rfl
@[simp] theorem loadCount_cnt : (loadCount s).cnt = s.cnt := rfl
@[simp] theorem loadCount_oca : (loadCount s).oca = s.oca := rfl
@[simp] theorem loadCount_ocb : (loadCount s).ocb = s.ocb := rfl
@[simp] theorem loadCount_t0 : (loadCount s).t0 = s.t0 := rfl
@[simp] theorem loadCount_icr : (loadCount s).icr = s.icr := rfl
@[simp] theorem loadCount_capf : (loadCount s).capf = s.capf := rfl
@[simp] theorem loadCount_phase : (loadCount s).phase = s.phase := rfl
@[simp] theorem loadCount_next : (loadCount s).next = s.next := rfl
@[simp] theorem loadCount_ready : (loadCount s).ready = s.ready := rfl
@[simp] theorem loadCount_updated : (loadCount s).updated = s.updated := rfl
@[simp] theorem loadCount_raw : (loadCount s).raw = s.raw := rfl
@[simp] theorem loadCount_drive : (loadCount s).drive = s.drive := rfl
@[simp] theorem loadCount_disch : (loadCount s).disch = s.disch := rfl
@[simp] theorem loadCount_dbc : (loadCount s).dbc = s.dbc := rfl
@[simp] theorem loadCount_deb : (loadCount s).deb = s.deb := rfl
@[simp] theorem loadCount_sdaPull : (loadCount s).sdaPull = s.sdaPull := rfl
@[simp] theorem loadCount_sclPull : (loadCount s).sclPull = s.sclPull := rfl
@[simp] theorem loadCount_sr : (loadCount s).sr = s.sr := rfl
@[simp] theorem loadCount_bitcnt : (loadCount s).bitcnt = 8 := rfl
@[simp] theorem loadCount_startF : (loadCount s).startF = s.startF := rfl
@[simp] theorem loadCount_stopF : (loadCount s).stopF = s.stopF := rfl
@[simp] theorem loadCount_busState : (loadCount s).busState = s.busState := rfl
@[simp] theorem loadCount_matched : (loadCount s).matched = s.matched := rfl
@[simp] theorem loadCount_dir : (loadCount s).dir = s.dir := rfl
@[simp] theorem loadCount_mode : (loadCount s).mode = s.mode := rfl
@[simp] theorem loadCount_cursor : (loadCount s).cursor = s.cursor := rfl
@[simp] theorem loadCount_snap : (loadCount s).snap = s.snap := rfl
@[simp] theorem loadCount_out : (loadCount s).out = s.out := rfl
@[simp] theorem loadCount_invalid : (loadCount s).invalid = s.invalid := rfl
@[simp] theorem loadCount_nv : (loadCount s).nv = s.nv := rfl
@[simp] theorem loadCount_nvBusy : (loadCount s).nvBusy = s.nvBusy := rfl
@[simp] theorem loadCount_nvWrites : (loadCount s).nvWrites = s.nvWrites := rfl
@[simp] theorem loadCount_ie : (loadCount s).ie = s.ie := rfl
@[simp] theorem loadCount_xfer : (loadCount s).xfer = s.xfer := rfl
@[simp] theorem loadCount_main : (loadCount s).main = s.main := rfl
@[simp] theorem loadCount_progress : (loadCount s).progress = s.progress := rfl
@[simp] theorem loadCount_lowByte : (loadCount s).lowByte = s.lowByte := rfl
@[simp] theorem loadCount_cmp : (loadCount s).cmp = s.cmp := rfl
@[simp] theorem loadCount_btnIn : (loadCount s).btnIn = s.btnIn := rfl
@[simp] theorem loadCount_peerSda : (loadCount s).peerSda = s.peerSda := rfl
@[simp] theorem loadCount_peerScl : (loadCount s).peerScl = s.peerScl := rfl
@[simp] theorem loadCount_hostSaw : (loadCount s).hostSaw = s.hostSaw := rfl
@[simp] theorem loadCount_sched : (loadCount s).sched = s.sched := rfl
@[simp] theorem loadCount_draws : (loadCount s).draws = s.draws := rfl
@[simp] theorem loadCount_asked : (loadCount s).asked = s.asked := rfl

/-! ### `advance` -/

@[simp] theorem advance_cfg : (advance s).cfg = s.cfg := rfl
@[simp] theorem advance_cnt : (advance s).cnt = s.cnt := rfl
@[simp] theorem advance_oca : (advance s).oca = s.oca := rfl
@[simp] theorem advance_ocb : (advance s).ocb = s.ocb := rfl
@[simp] theorem advance_t0 : (advance s).t0 = s.t0 := rfl
@[simp] theorem advance_icr : (advance s).icr = s.icr := rfl
@[simp] theorem advance_capf : (advance s).capf = s.capf := rfl
@[simp] theorem advance_phase : (advance s).phase = s.phase := rfl
@[simp] theorem advance_next : (advance s).next = s.next := rfl
@[simp] theorem advance_ready : (advance s).ready = s.ready := rfl
@[simp] theorem advance_updated : (advance s).updated = s.updated := rfl
@[simp] theorem advance_raw : (advance s).raw = s.raw := rfl
@[simp] theorem advance_drive : (advance s).drive = s.drive := rfl
@[simp] theorem advance_disch : (advance s).disch = s.disch := rfl
@[simp] theorem advance_dbc : (advance s).dbc = s.dbc := rfl
@[simp] theorem advance_deb : (advance s).deb = s.deb := rfl
@[simp] theorem advance_sdaPull : (advance s).sdaPull = s.sdaPull := rfl
@[simp] theorem advance_sclPull : (advance s).sclPull = s.sclPull := rfl
@[simp] theorem advance_sr : (advance s).sr = s.sr := rfl
@[simp] theorem advance_bitcnt : (advance s).bitcnt = s.bitcnt := rfl
@[simp] theorem advance_startF : (advance s).startF = s.startF := rfl
@[simp] theorem advance_stopF : (advance s).stopF = s.stopF := rfl
@[simp] theorem advance_busState : (advance s).busState = s.busState := rfl
@[simp] theorem advance_matched : (advance s).matched = s.matched := rfl
@[simp] theorem advance_dir : (advance s).dir = s.dir := rfl
@[simp] theorem advance_mode : (advance s).mode = s.mode := rfl
@[simp] theorem advance_cursor : (advance s).cursor = advanceCursor (sourceOf s.mode).len s.cursor := rfl
@[simp] theorem advance_snap : (advance s).snap = s.snap := rfl
@[simp] theorem advance_out : (advance s).out = s.out := rfl
@[simp] theorem advance_invalid : (advance s).invalid = s.invalid := rfl
@[simp] theorem advance_nv : (advance s).nv = s.nv := rfl
@[simp] theorem advance_nvBusy : (advance s).nvBusy = s.nvBusy := rfl
@[simp] theorem advance_nvWrites : (advance s).nvWrites = s.nvWrites := rfl
@[simp] theorem advance_ie : (advance s).ie = s.ie := rfl
@[simp] theorem advance_xfer : (advance s).xfer = s.xfer := rfl
@[simp] theorem advance_main : (advance s).main = s.main := rfl
@[simp] theorem advance_progress : (advance s).progress = s.progress := rfl
@[simp] theorem advance_lowByte : (advance s).lowByte = s.lowByte := rfl
@[simp] theorem advance_cmp : (advance s).cmp = s.cmp := rfl
@[simp] theorem advance_btnIn : (advance s).btnIn = s.btnIn := rfl
@[simp] theorem advance_peerSda : (advance s).peerSda = s.peerSda := rfl
@[simp] theorem advance_peerScl : (advance s).peerScl = s.peerScl := rfl
@[simp] theorem advance_hostSaw : (advance s).hostSaw = s.hostSaw := rfl
@[simp] theorem advance_sched : (advance s).sched = s.sched := rfl
@[simp] theorem advance_draws : (advance s).draws = s.draws := rfl
@[simp] theorem advance_asked : (advance s).asked = s.asked := rfl

/-! ### `loadAddress` -/

@[simp] theorem loadAddress_cfg : (loadAddress s).cfg = s.cfg := rfl
@[simp] theorem loadAddress_cnt : (loadAddress s).cnt = s.cnt := rfl
@[simp] theorem loadAddress_oca : (loadAddress s).oca = s.oca := rfl
@[simp] theorem loadAddress_ocb : (loadAddress s).ocb = s.ocb := rfl
@[simp] theorem loadAddress_t0 : (loadAddress s).t0 = s.t0 := rfl
@[simp] theorem loadAddress_icr : (loadAddress s).icr = s.icr := rfl
@[simp] theorem loadAddress_capf : (loadAddress s).capf = s.capf := rfl
@[simp] theorem loadAddress_phase : (loadAddress s).phase = s.phase := rfl
@[simp] theorem loadAddress_next : (loadAddress s).next = s.next := rfl
@[simp] theorem loadAddress_ready : (loadAddress s).ready = s.ready := rfl
@[simp] theorem loadAddress_updated : (loadAddress s).updated = s.updated := rfl
@[simp] theorem loadAddress_raw : (loadAddress s).raw = s.raw := rfl
@[simp] theorem loadAddress_drive : (loadAddress s).drive = s.drive := rfl
@[simp] theorem loadAddress_disch : (loadAddress s).disch = s.disch := rfl
@[simp] theorem loadAddress_dbc : (loadAddress s).dbc = s.dbc := rfl
@[simp] theorem loadAddress_deb : (loadAddress s).deb = s.deb := rfl
@[simp] theorem loadAddress_sdaPull : (loadAddress s).sdaPull = false := rfl
@[simp] theorem loadAddress_sclPull : (loadAddress s).sclPull = false := rfl
@[simp] theorem loadAddress_sr : (loadAddress s).sr = s.sr := rfl
@[simp] theorem loadAddress_bitcnt : (loadAddress s).bitcnt = 8 := rfl
@[simp] theorem loadAddress_startF : (loadAddress s).startF = s.startF := rfl
@[simp] theorem loadAddress_stopF : (loadAddress s).stopF = false := rfl
@[simp] theorem loadAddress_busState : (loadAddress s).busState = s.busState := rfl
@[simp] theorem loadAddress_matched : (loadAddress s).matched = s.matched := rfl
@[simp] theorem loadAddress_dir : (loadAddress s).dir = s.dir := rfl
@[simp] theorem loadAddress_mode : (loadAddress s).mode = s.mode := rfl
@[simp] theorem loadAddress_cursor : (loadAddress s).cursor = s.cursor := rfl
@[simp] theorem loadAddress_snap : (loadAddress s).snap = s.snap := rfl
@[simp] theorem loadAddress_out : (loadAddress s).out = s.out := rfl
@[simp] theorem loadAddress_invalid : (loadAddress s).invalid = s.invalid := rfl
@[simp] theorem loadAddress_nv : (loadAddress s).nv = s.nv := rfl
@[simp] theorem loadAddress_nvBusy : (loadAddress s).nvBusy = s.nvBusy := rfl
@[simp] theorem loadAddress_nvWrites : (loadAddress s).nvWrites = s.nvWrites := rfl
@[simp] theorem loadAddress_ie : (loadAddress s).ie = s.ie := rfl
@[simp] theorem loadAddress_xfer : (loadAddress s).xfer = .rxData (.addressMatch s.cfg.addrMask) := rfl
@[simp] theorem loadAddress_main : (loadAddress s).main = s.main := rfl
@[simp] theorem loadAddress_progress : (loadAddress s).progress = s.progress := rfl
@[simp] theorem loadAddress_lowByte : (loadAddress s).lowByte = s.lowByte := rfl
@[simp] theorem loadAddress_cmp : (loadAddress s).cmp = s.cmp := rfl
@[simp] theorem loadAddress_btnIn : (loadAddress s).btnIn = s.btnIn := rfl
@[simp] theorem loadAddress_peerSda : (loadAddress s).peerSda = s.peerSda := rfl
@[simp] theorem loadAddress_peerScl : (loadAddress s).peerScl = s.peerScl := rfl
@[simp] theorem loadAddress_hostSaw : (loadAddress s).hostSaw = s.hostSaw := rfl
@[simp] theorem loadAddress_sched : (loadAddress s).sched = s.sched := rfl
@[simp] theorem loadAddress_draws : (loadAddress s).draws = s.draws := rfl
@[simp] theorem loadAddress_asked : (loadAddress s).asked = s.asked := rfl

/-! ### `putBack` -/

@[simp] theorem putBack_cfg (m : Move) : (putBack m s).cfg = s.cfg := rfl
@[simp] theorem putBack_cnt (m : Move) : (putBack m s).cnt = s.cnt := rfl
@[simp] theorem putBack_oca (m : Move) : (putBack m s).oca = s.oca := rfl
@[simp] theorem putBack_ocb (m : Move) : (putBack m s).ocb = s.ocb := rfl
@[simp] theorem putBack_t0 (m : Move) : (putBack m s).t0 = s.t0 := rfl
@[simp] theorem putBack_icr (m : Move) : (putBack m s).icr = s.icr := rfl
@[simp] theorem putBack_capf (m : Move) : (putBack m s).capf = s.capf := rfl
@[simp] theorem putBack_phase (m : Move) : (putBack m s).phase = s.phase := rfl
@[simp] theorem putBack_next (m : Move) : (putBack m s).next = s.next := rfl
@[simp] theorem putBack_ready (m : Move) : (putBack m s).ready = s.ready := rfl
@[simp] theorem putBack_updated (m : Move) : (putBack m s).updated = s.updated := rfl
@[simp] theorem putBack_raw (m : Move) : (putBack m s).raw = s.raw := rfl
@[simp] theorem putBack_drive (m : Move) : (putBack m s).drive = s.drive := rfl
@[simp] theorem putBack_disch (m : Move) : (putBack m s).disch = s.disch := rfl
@[simp] theorem putBack_dbc (m : Move) : (putBack m s).dbc = s.dbc := rfl
@[simp] theorem putBack_deb (m : Move) : (putBack m s).deb = s.deb := rfl
@[simp] theorem putBack_sdaPull (m : Move) : (putBack m s).sdaPull = s.sdaPull := rfl
@[simp] theorem putBack_sclPull (m : Move) : (putBack m s).sclPull = s.sclPull := rfl
@[simp] theorem putBack_sr (m : Move) : (putBack m s).sr = s.sr := rfl
@[simp] theorem putBack_bitcnt (m : Move) : (putBack m s).bitcnt = s.bitcnt := rfl
@[simp] theorem putBack_startF (m : Move) : (putBack m s).startF = s.startF := rfl
@[simp] theorem putBack_stopF (m : Move) : (putBack m s).stopF = s.stopF := rfl
@[simp] theorem putBack_busState (m : Move) : (putBack m s).busState = s.busState := rfl
@[simp] theorem putBack_matched (m : Move) : (putBack m s).matched = s.matched := rfl
@[simp] theorem putBack_dir (m : Move) : (putBack m s).dir = s.dir := rfl
@[simp] theorem putBack_mode (m : Move) : (putBack m s).mode = s.mode := rfl
@[simp] theorem putBack_cursor (m : Move) : (putBack m s).cursor = s.cursor := rfl
@[simp] theorem putBack_snap (m : Move) : (putBack m s).snap = s.snap := rfl
@[simp] theorem putBack_out (m : Move) : (putBack m s).out = s.out := rfl
@[simp] theorem putBack_invalid (m : Move) : (putBack m s).invalid = s.invalid := rfl
@[simp] theorem putBack_nv (m : Move) : (putBack m s).nv = s.nv := rfl
@[simp] theorem putBack_nvBusy (m : Move) : (putBack m s).nvBusy = s.nvBusy := rfl
@[simp] theorem putBack_nvWrites (m : Move) : (putBack m s).nvWrites = s.nvWrites := rfl
@[simp] theorem putBack_ie (m : Move) : (putBack m s).ie = s.ie := rfl
@[simp] theorem putBack_xfer (m : Move) : (putBack m s).xfer = s.xfer := rfl
@[simp] theorem putBack_main (m : Move) : (putBack m s).main = s.main := rfl
@[simp] theorem putBack_progress (m : Move) : (putBack m s).progress = s.progress := rfl
@[simp] theorem putBack_lowByte (m : Move) : (putBack m s).lowByte = s.lowByte := rfl
@[simp] theorem putBack_cmp (m : Move) : (putBack m s).cmp = s.cmp := rfl
@[simp] theorem putBack_btnIn (m : Move) : (putBack m s).btnIn = s.btnIn := rfl
@[simp] theorem putBack_peerSda (m : Move) : (putBack m s).peerSda = s.peerSda := rfl
@[simp] theorem putBack_peerScl (m : Move) : (putBack m s).peerScl = s.peerScl := rfl
@[simp] theorem putBack_hostSaw (m : Move) : (putBack m s).hostSaw = s.hostSaw := rfl
@[simp] theorem putBack_sched (m : Move) : (putBack m s).sched = m :: s.sched := rfl
@[simp] theorem putBack_draws (m : Move) : (putBack m s).draws = s.draws := rfl
@[simp] theorem putBack_asked (m : Move) : (putBack m s).asked = s.asked := rfl

end Sys2Proof.Machine
end

