-- ==== Sys2Proof/Laws/Memory.lean ====
section
/-! SUPPORT. The trim store as a list: a read after a write, and the canonical form every write keeps. -/

namespace Sys2Proof.Machine

@[simp] theorem memFind_memPut_same (m : List Host.Cell) (a : Nat) (b : Byte) : memFind (memPut m a b) a = some b := by
  induction m with
  | nil => simp [memPut, memFind]
  | cons c rest ih =>
    unfold memPut
    split
    · simp [memFind]
    · split
      · simp [memFind]
      · simp [memFind, *]

theorem memFind_memPut_other (m : List Host.Cell) {a a' : Nat} (b : Byte) (h : a' ≠ a) :
    memFind (memPut m a b) a' = memFind m a' := by
  induction m with
  | nil => simp [memPut, memFind, Ne.symm h]
  | cons c rest ih =>
    unfold memPut
    split
    · simp [memFind, Ne.symm h]
    · split
      · next hc => subst hc; simp [memFind, Ne.symm h]
      · simp only [memFind, ih]

theorem memFind_none_of_rising {lo a : Nat} : ∀ {m : List Host.Cell}, memRising lo m = true → a < lo → memFind m a = none
  | [], _, _ => rfl
  | c :: rest, h, ha => by
    simp only [memRising, Bool.and_eq_true, decide_eq_true_eq] at h
    have hc : c.1 ≠ a := by omega
    simp only [memFind, hc, if_false]
    exact memFind_none_of_rising h.2 (by omega)

theorem memFind_memErase_same {lo a : Nat} : ∀ {m : List Host.Cell}, memRising lo m = true → memFind (memErase m a) a = none
  | [], _ => rfl
  | c :: rest, h => by
    simp only [memRising, Bool.and_eq_true, decide_eq_true_eq] at h
    by_cases hc : c.1 = a
    · simp only [memErase, hc, if_true]
      exact memFind_none_of_rising h.2 (by omega)
    · simp only [memErase, hc, if_false, memFind]
      exact memFind_memErase_same h.2

theorem memFind_memErase_other (m : List Host.Cell) {a a' : Nat} (h : a' ≠ a) : memFind (memErase m a) a' = memFind m a' := by
  induction m with
  | nil => rfl
  | cons c rest ih =>
    by_cases hc : c.1 = a
    · have hc' : c.1 ≠ a' := by omega
      simp only [memErase, hc, if_true, memFind]
      rw [if_neg (by omega)]
    · simp only [memErase, hc, if_false, memFind, ih]

/-- A read after a write to the same address gives the byte written. -/
theorem memRead_memWrite_same (p : Params) {m : List Host.Cell} {lo : Nat} (h : memRising lo m = true) (a : Nat) (b : Byte) :
    memRead p (memWrite p m a b) a = b := by
  unfold memRead memWrite
  split
  · next hb => rw [memFind_memErase_same h]; simp [hb]
  · simp

/-- A write leaves every other address alone. -/
theorem memRead_memWrite_other (p : Params) (m : List Host.Cell) {a a' : Nat} (b : Byte) (h : a' ≠ a) :
    memRead p (memWrite p m a b) a' = memRead p m a' := by
  unfold memRead memWrite
  split
  · rw [memFind_memErase_other m h]
  · rw [memFind_memPut_other m b h]

theorem memRising_weaken {lo lo' : Nat} (hl : lo' ≤ lo) : ∀ {m : List Host.Cell}, memRising lo m = true → memRising lo' m = true
  | [], _ => rfl
  | c :: rest, h => by
    simp only [memRising, Bool.and_eq_true, decide_eq_true_eq] at h ⊢
    exact ⟨by omega, h.2⟩

theorem memRising_memErase {a : Nat} : ∀ {lo : Nat} {m : List Host.Cell}, memRising lo m = true → memRising lo (memErase m a) = true
  | _, [], _ => rfl
  | lo, c :: rest, h => by
    simp only [memRising, Bool.and_eq_true, decide_eq_true_eq] at h
    by_cases hc : c.1 = a
    · simp only [memErase, hc, if_true]
      exact memRising_weaken (by omega) h.2
    · simp only [memErase, hc, if_false, memRising, Bool.and_eq_true, decide_eq_true_eq]
      exact ⟨h.1, memRising_memErase h.2⟩

theorem memRising_memPut {a : Nat} {b : Byte} : ∀ {lo : Nat} {m : List Host.Cell}, memRising lo m = true → lo ≤ a →
    memRising lo (memPut m a b) = true
  | lo, [], _, ha => by simp [memPut, memRising, ha]
  | lo, c :: rest, h, ha => by
    simp only [memRising, Bool.and_eq_true, decide_eq_true_eq] at h
    unfold memPut
    split
    · simp only [memRising, Bool.and_eq_true, decide_eq_true_eq]
      exact ⟨ha, by omega, h.2⟩
    · split
      · next hc => simp only [memRising, Bool.and_eq_true, decide_eq_true_eq]; exact ⟨ha, by rw [← hc]; exact h.2⟩
      · simp only [memRising, Bool.and_eq_true, decide_eq_true_eq]
        exact ⟨h.1, memRising_memPut h.2 (by omega)⟩

theorem mem_memErase {a : Nat} {c : Host.Cell} : ∀ {m : List Host.Cell}, c ∈ memErase m a → c ∈ m
  | [], h => h
  | d :: rest, h => by
    unfold memErase at h
    split at h
    · exact List.mem_cons_of_mem _ h
    · rcases List.mem_cons.mp h with h1 | h1
      · exact h1 ▸ List.mem_cons_self
      · exact List.mem_cons_of_mem _ (mem_memErase h1)

theorem mem_memPut {a : Nat} {b : Byte} {c : Host.Cell} : ∀ {m : List Host.Cell}, c ∈ memPut m a b → c = (a, b) ∨ c ∈ m
  | [], h => by simp only [memPut, List.mem_singleton] at h; exact .inl h
  | d :: rest, h => by
    unfold memPut at h
    split at h
    · rcases List.mem_cons.mp h with h1 | h1
      · exact .inl h1
      · exact .inr h1
    · split at h
      · rcases List.mem_cons.mp h with h1 | h1
        · exact .inl h1
        · exact .inr (List.mem_cons_of_mem _ h1)
      · rcases List.mem_cons.mp h with h1 | h1
        · exact .inr (h1 ▸ List.mem_cons_self)
        · rcases mem_memPut h1 with h2 | h2
          · exact .inl h2
          · exact .inr (List.mem_cons_of_mem _ h2)

/-- Every write of a byte of the table keeps the canonical form. -/
theorem memWrite_wf (p : Params) {m : List Host.Cell} (h : Memory.wf p m = true) (k : Fin 24) (b : Byte) :
    Memory.wf p (memWrite p m (nvAddr p k) b) = true := by
  simp only [Memory.wf, Bool.and_eq_true, List.all_eq_true, decide_eq_true_eq] at h ⊢
  unfold memWrite
  split
  · exact ⟨memRising_memErase h.1, fun c hc => h.2 c (mem_memErase hc)⟩
  · next hb =>
    refine ⟨memRising_memPut h.1 (by simp [nvAddr]), fun c hc => ?_⟩
    rcases mem_memPut hc with hc | hc
    · subst hc; exact ⟨by simp [nvAddr], hb⟩
    · exact h.2 c hc

/-- The commit of a store write keeps the canonical form. -/
theorem nvCommit_wf {s : State} (h : Memory.wf s.cfg s.nv = true) (w : Fin 12) (v : Word) :
    Memory.wf (nvCommit w v s).cfg (nvCommit w v s).nv = true := by
  simpa using memWrite_wf _ (memWrite_wf _ h _ _) _ _

/-- The store at first power-up is in canonical form. -/
theorem reset_wf : Memory.wf State.reset.cfg State.reset.nv = true := by decide

end Sys2Proof.Machine
end

