-- ==== Sys2Proof/Laws/Frames.lean ====
section
/-! SUPPORT. What each shared operation can change, said once: the transport operations only the line registers, the other agents' moves nothing of the main context, `exec` never faults. -/

namespace Sys2Proof.Machine

/-- `s` with the transport registers and the peer's side of `t` (R27, R28). -/
def withLine (s t : State) : State :=
  { s with
    sdaPull := t.sdaPull, sclPull := t.sclPull, sr := t.sr, bitcnt := t.bitcnt, startF := t.startF, stopF := t.stopF,
    xfer := t.xfer, peerSda := t.peerSda, peerScl := t.peerScl, hostSaw := t.hostSaw }

/-- `t` differs from `s` in the transport registers and the peer's side only. -/
def LineFrame (s t : State) : Prop := withLine s t = t

theorem LineFrame.refl (s : State) : LineFrame s s := rfl

theorem LineFrame.trans {s t u : State} (h : LineFrame s t) (g : LineFrame t u) : LineFrame s u := by
  unfold LineFrame at *
  rw [← g, ← h]
  rfl

theorem abortXfer_frame (s : State) : LineFrame s (abortXfer s) := by
  unfold abortXfer
  split <;> rfl

theorem loadAddress_frame (s : State) : LineFrame s (loadAddress s) := rfl

theorem senseStart_frame (s : State) : LineFrame s (senseStart s) := by
  unfold senseStart
  split
  · exact LineFrame.trans (t := { s with startF := true }) rfl (loadAddress_frame _)
  · exact LineFrame.trans (t := { s with startF := true }) rfl (abortXfer_frame _)

theorem senseStop_frame (s : State) : LineFrame s (senseStop s) := by
  unfold senseStop
  split
  · split <;> rfl
  · exact LineFrame.trans (t := { s with stopF := true }) rfl (abortXfer_frame _)

theorem abortIfSensed_frame (s : State) : LineFrame s (abortIfSensed s) := by
  unfold abortIfSensed
  split
  · exact abortXfer_frame s
  · rfl

theorem clockRise_frame (s : State) : LineFrame s (clockRise s) := by
  unfold clockRise
  split
  · split
    · rfl
    · have h : LineFrame s { s with sr := shiftIn s.sr s.sda, bitcnt := s.bitcnt - 1 } := rfl
      exact h.trans (abortIfSensed_frame _)
  · split <;> rfl
  all_goals rfl

theorem clockFall_frame (s : State) : LineFrame s (clockFall s) := by
  unfold clockFall
  split
  · split <;> rfl
  · split
    · split <;> rfl
    · rfl
  · split
    · have h : LineFrame s { s with
          sr := shiftIn s.sr false, bitcnt := s.bitcnt - 1, sdaPull := !(shiftIn s.sr false).getLsbD 7 } := rfl
      exact h.trans (abortIfSensed_frame _)
    · rfl
  · rfl
  · rfl
  · split <;> rfl
  · split <;> rfl

theorem lineEdges_frame (a b : Bool) (s : State) : LineFrame s (lineEdges a b s) := by
  unfold lineEdges
  split
  · split
    · exact senseStart_frame s
    · split
      · exact senseStop_frame s
      · rfl
  · split
    · exact clockRise_frame s
    · split
      · exact clockFall_frame s
      · rfl

/-- A change of who pulls the lines that is itself on the transport, with the edges it makes, stays on the transport. -/
theorem drivingLines_frame {change : State → State} {s : State} (h : LineFrame s (change s)) :
    LineFrame s (drivingLines change s) :=
  h.trans (lineEdges_frame _ _ _)

theorem setPeerSda_frame (p : Bool) (s : State) : LineFrame s (setPeerSda p s) := drivingLines_frame rfl

theorem setPeerScl_frame (p : Bool) (s : State) : LineFrame s (setPeerScl p s) := drivingLines_frame rfl

theorem clearStop_frame (s : State) : LineFrame s (clearStop s) := rfl

theorem loadByte_frame (b : Byte) (s : State) : LineFrame s (loadByte b s) := rfl

theorem loadCount_frame (s : State) : LineFrame s (loadCount s) := rfl

theorem setData_frame (p : Bool) (s : State) : LineFrame s (setData p s) := drivingLines_frame rfl

theorem releaseClock_frame (x : Xfer) (s : State) : LineFrame s (releaseClock x s) := drivingLines_frame rfl

theorem listen_frame (s : State) : LineFrame s (listen s) := by
  unfold listen
  split
  · exact drivingLines_frame (loadAddress_frame s)
  · rfl

/-- What the host saw is on the peer's side. -/
theorem LineFrame.saw {s t : State} (h : LineFrame s t) (w : Option HostSaw) : LineFrame s { t with hostSaw := w } := by
  unfold LineFrame at h ⊢
  rw [← h]
  rfl

theorem peerPulse_frame (bit : Bool) (s : State) : LineFrame s (peerPulse bit s).2 :=
  (setPeerScl_frame _ _).trans ((setPeerSda_frame _ _).trans ((setPeerScl_frame _ _).trans (setPeerScl_frame _ _)))

theorem peerWrite_frame (bs : List Bool) (s : State) : LineFrame s (peerWrite bs s).1 := by
  induction bs generalizing s with
  | nil =>
    unfold peerWrite
    split
    · rfl
    · exact (peerPulse_frame true s).saw _
  | cons b bs ih =>
    unfold peerWrite
    split
    · rfl
    · exact (peerPulse_frame b s).trans (ih _)

theorem peerRead_frame (n : Nat) (acc : Byte) (a : Bool) (s : State) : LineFrame s (peerRead n acc a s).1 := by
  induction n generalizing acc s with
  | zero =>
    unfold peerRead
    split
    · rfl
    · exact ((peerPulse_frame _ s).trans (setPeerSda_frame _ _)).saw _
  | succ n ih =>
    unfold peerRead
    split
    · rfl
    · exact (peerPulse_frame true s).trans (ih _ _)

theorem peerStart_frame (s : State) : LineFrame s (peerStart s) := by
  unfold peerStart
  split
  · exact (setPeerSda_frame _ _).trans (setPeerScl_frame _ _)
  · exact (setPeerScl_frame _ _).trans ((setPeerSda_frame _ _).trans ((setPeerScl_frame _ _).trans
      ((setPeerSda_frame _ _).trans (setPeerScl_frame _ _))))

theorem peerStop_frame (s : State) : LineFrame s (peerStop s) :=
  (setPeerScl_frame _ _).trans ((setPeerSda_frame _ _).trans ((setPeerScl_frame _ _).trans (setPeerSda_frame _ _)))

/-- Where the main context stands is no transport register. -/
theorem LineFrame.atPoint {s t : State} (h : LineFrame s t) (m : MainPoint) : LineFrame { s with main := m } { t with main := m } := by
  unfold LineFrame at h ⊢
  rw [← h]
  rfl

/-- The entry of `RxByte` changes transport registers and where the main context stands (R157). -/
theorem rxStep_frame (e : RxEntry) (u : RxUse) (s : State) : LineFrame { s with main := (rxStep e u s).main } (rxStep e u s) := by
  cases e
  · exact (clearStop_frame s).atPoint _
  · exact (setData_frame false s).atPoint _
  · exact (loadCount_frame s).atPoint _
  · exact (releaseClock_frame _ s).atPoint _

/-- The entry of `TxByte` changes transport registers and where the main context stands (R158). -/
theorem txStep_frame (e : TxEntry) (b : Byte) (s : State) : LineFrame { s with main := (txStep e b s).main } (txStep e b s) := by
  cases e
  · exact (clearStop_frame s).atPoint _
  · exact (loadByte_frame b s).atPoint _
  · exact (loadCount_frame s).atPoint _
  · unfold txStep
    dsimp only
    split
    · rfl
    · exact (setData_frame _ s).atPoint _
  · exact (releaseClock_frame _ s).atPoint _

/-- Leaving `end_access` changes transport registers and where the main context stands (R186). -/
theorem endData_frame (s : State) : LineFrame { s with main := (endData s).main } (endData s) := (setData_frame false s).atPoint _

theorem endClock_frame (s : State) : LineFrame { s with main := .loop } (endClock s) :=
  ((releaseClock_frame s.xfer s).atPoint _).trans (listen_frame _)

/-- `s` with everything an agent other than the main context may write taken from `t` (R320). -/
def withAgents (s t : State) : State :=
  { s with
    cnt := t.cnt, oca := t.oca, ocb := t.ocb, t0 := t.t0, icr := t.icr, capf := t.capf, phase := t.phase, next := t.next,
    ready := t.ready, updated := t.updated, raw := t.raw, drive := t.drive, disch := t.disch, dbc := t.dbc, deb := t.deb,
    sdaPull := t.sdaPull, sclPull := t.sclPull, sr := t.sr, bitcnt := t.bitcnt, startF := t.startF, stopF := t.stopF,
    xfer := t.xfer, cmp := t.cmp, btnIn := t.btnIn, peerSda := t.peerSda, peerScl := t.peerScl, hostSaw := t.hostSaw,
    nvBusy := t.nvBusy }

/-- `t` differs from `s` only in what the agents other than the main context may write. -/
def AgentFrame (s t : State) : Prop := withAgents s t = t

theorem AgentFrame.refl (s : State) : AgentFrame s s := rfl

theorem AgentFrame.trans {s t u : State} (h : AgentFrame s t) (g : AgentFrame t u) : AgentFrame s u := by
  unfold AgentFrame at *
  rw [← g, ← h]
  rfl

/-! What an `AgentFrame` leaves alone, field by field. -/

theorem AgentFrame.cfg {s t : State} (h : AgentFrame s t) : t.cfg = s.cfg := by rw [← h]; rfl
theorem AgentFrame.busState {s t : State} (h : AgentFrame s t) : t.busState = s.busState := by rw [← h]; rfl
theorem AgentFrame.matched {s t : State} (h : AgentFrame s t) : t.matched = s.matched := by rw [← h]; rfl
theorem AgentFrame.dir {s t : State} (h : AgentFrame s t) : t.dir = s.dir := by rw [← h]; rfl
theorem AgentFrame.mode {s t : State} (h : AgentFrame s t) : t.mode = s.mode := by rw [← h]; rfl
theorem AgentFrame.cursor {s t : State} (h : AgentFrame s t) : t.cursor = s.cursor := by rw [← h]; rfl
theorem AgentFrame.snap {s t : State} (h : AgentFrame s t) : t.snap = s.snap := by rw [← h]; rfl
theorem AgentFrame.out {s t : State} (h : AgentFrame s t) : t.out = s.out := by rw [← h]; rfl
theorem AgentFrame.invalid {s t : State} (h : AgentFrame s t) : t.invalid = s.invalid := by rw [← h]; rfl
theorem AgentFrame.nv {s t : State} (h : AgentFrame s t) : t.nv = s.nv := by rw [← h]; rfl
theorem AgentFrame.nvWrites {s t : State} (h : AgentFrame s t) : t.nvWrites = s.nvWrites := by rw [← h]; rfl
theorem AgentFrame.ie {s t : State} (h : AgentFrame s t) : t.ie = s.ie := by rw [← h]; rfl
theorem AgentFrame.main {s t : State} (h : AgentFrame s t) : t.main = s.main := by rw [← h]; rfl
theorem AgentFrame.progress {s t : State} (h : AgentFrame s t) : t.progress = s.progress := by rw [← h]; rfl
theorem AgentFrame.lowByte {s t : State} (h : AgentFrame s t) : t.lowByte = s.lowByte := by rw [← h]; rfl
theorem AgentFrame.asked {s t : State} (h : AgentFrame s t) : t.asked = s.asked := by rw [← h]; rfl
theorem AgentFrame.sched {s t : State} (h : AgentFrame s t) : t.sched = s.sched := by rw [← h]; rfl
theorem AgentFrame.draws {s t : State} (h : AgentFrame s t) : t.draws = s.draws := by rw [← h]; rfl

theorem LineFrame.agents {s t : State} (h : LineFrame s t) : AgentFrame s t := by
  unfold AgentFrame
  unfold LineFrame at h
  rw [← h]
  rfl

/-- An enabled interrupt takes effect (R72). -/
theorem takeInterrupt_enabled {handler : State → State} {s : State} (h : s.ie = true) : takeInterrupt handler s = handler s := by
  simp [takeInterrupt, h]

/-- A read of a word that need not wait: its low byte is kept, then its high byte makes the word (R64). -/
theorem nvRead16_low {w : Fin 12} {s : State} (h : s.nvBusy = false) (hl : s.lowByte = none) :
    nvRead16 w s = (none, { s with lowByte := some (s.nvByte (wordLo w)) }) := by
  simp [nvRead16, nvRead8, h, hl]

theorem nvRead16_high {w : Fin 12} {s : State} {lo : Byte} (h : s.nvBusy = false) (hl : s.lowByte = some lo) :
    nvRead16 w s = (some (Word.ofBytes lo (s.nvByte (wordHi w))), { s with lowByte := none }) := by
  simp [nvRead16, nvRead8, h, hl]

/-- A read of a word waits while a write is in flight (R64, R66). -/
theorem nvRead16_waits {w : Fin 12} {s : State} (h : s.nvBusy = true) : nvRead16 w s = (none, s) := by
  unfold nvRead16 nvRead8
  split <;> simp [h]

theorem compareEvent_frame (s : State) : AgentFrame s (compareEvent s) := by
  unfold compareEvent takeInterrupt
  cases s.ie with
  | false => rfl
  | true =>
    simp only [if_true]
    split
    · rfl
    · split <;> rfl

theorem setCmp_frame (l : Bool) (s : State) : AgentFrame s (setCmp l s) := by
  unfold setCmp trip
  dsimp only
  split
  · split <;> rfl
  · rfl

theorem evD_frame (s : State) : AgentFrame s (evD s) := by
  unfold evD takeInterrupt
  split <;> rfl

theorem tick_frame (s : State) : AgentFrame s (tick s) := by
  unfold tick
  split <;> rfl

/-- A move of another agent changes nothing the main context owns (R315, R320). -/
theorem agentMove_frame (m : Move) (s : State) : AgentFrame s (agentMove m s) := by
  cases m with
  | tick => exact tick_frame s
  | cmp l => exact setCmp_frame l s
  | evD => exact evD_frame s
  | btn p => rfl
  | peerSda p => exact (setPeerSda_frame p s).agents
  | peerScl p => exact (setPeerScl_frame p s).agents
  | start => exact ((peerStart_frame s).saw none).agents
  | stop => exact ((peerStop_frame s).saw none).agents
  | wbyte b => exact (peerWrite_frame _ s).agents
  | rbyte a => exact (peerRead_frame _ _ _ s).agents
  | wrest bits => exact (peerWrite_frame _ s).agents
  | rrest n acc a => exact (peerRead_frame _ _ _ s).agents
  | retire => rfl
  | dispatch => rfl
  | convert => rfl

/-- A step with a move scheduled is that move, in a configuration the block serves and with nothing out of scope asked for (R10). -/
theorem step_scheduled {s : State} (hc : s.cfg.ok = true) (ha : s.asked = none) (m : Move) (ms : List Move) :
    step { s with sched := m :: ms } = moveStep exec m { s with sched := ms } := by
  simp only [Params.ok, Bool.and_eq_true] at hc
  simp [step, stepWith, nextMove, hc.1, hc.2, ha]

/-- The rest of a byte the block stretches in the middle is on the schedule alone. -/
theorem putRestBack_sched (r : Option Move) (s : State) : ∃ ms, putRestBack r s = { s with sched := ms } := by
  cases r with
  | none => exact ⟨s.sched, rfl⟩
  | some m => exact ⟨m :: s.sched, rfl⟩

/-- A move of another agent when neither a compare event, nor the clock, nor a wait comes before it. -/
theorem otherStep_free {run : Meaning} {m : Move} {s : State} (h1 : compareFirst m s = false) (h2 : lowersClock m s = false)
    (h3 : mustWait m s = false) : otherStep run m s = .next (putRestBack (moveRest m s) (agentMove m s)) := by
  simp [otherStep, h1, h2, h3]

/-- What a meaning can answer: a next state, or for the address byte the refusal of the bit-bang backend. -/
theorem exec_cases (i : Instr) (s : State) :
    (∃ t, exec i s = .next t) ∨ (exec i s = .refused .softwareBitbangSlave ∧ s.cfg.servesSlave = false) := by
  cases i with
  | addr a r =>
    cases h : s.cfg.servesSlave with
    | true => exact .inl ⟨finishAddress s.cfg.addrMask (a ++ BitVec.ofBool r) s, by simp only [exec, execAddr, h, if_true]⟩
    | false => exact .inr ⟨by simp [exec, execAddr, h], rfl⟩
  | rdAll => exact .inl ⟨_, rfl⟩
  | rdX1 => exact .inl ⟨_, rfl⟩
  | rdY1 => exact .inl ⟨_, rfl⟩
  | rdX2 => exact .inl ⟨_, rfl⟩
  | rdY2 => exact .inl ⟨_, rfl⟩
  | rdBtn => exact .inl ⟨_, rfl⟩
  | calA1 => exact .inl ⟨_, rfl⟩
  | calB1 => exact .inl ⟨_, rfl⟩
  | calF1 => exact .inl ⟨_, rfl⟩
  | calA2 => exact .inl ⟨_, rfl⟩
  | calB2 => exact .inl ⟨_, rfl⟩
  | calF2 => exact .inl ⟨_, rfl⟩
  | rdRaw => exact .inl ⟨_, rfl⟩
  | rdTrim => exact .inl ⟨_, rfl⟩
  | opaqueMode c => exact .inl ⟨_, rfl⟩

end Sys2Proof.Machine
end

