-- ==== Sys2Proof/Laws/Fair.lean ====
section
/-! SUPPORT. A fair run exists (R343, R344): from reset, time, the debounce timer, `DISPATCH` and `CONVERT` in turn, the bus silent. -/

namespace Sys2Proof.Machine

/-- What the run below keeps: the bus is silent, no write is in flight, and the compare registers follow `T0`. -/
structure Calm (s : State) : Prop where
  cfg : s.cfg = Params.reference
  asked : s.asked = none
  ie : s.ie = true
  nvBusy : s.nvBusy = false
  startF : s.startF = false
  ocb : s.ocb = s.t0 + 8000#16
  oca : s.phase = .charging → s.oca = s.t0 + 5000#16

theorem Calm.ok {s : State} (h : Calm s) : s.cfg.ok = true := by rw [h.cfg]; decide

theorem add_left_ne (a b c : Word) (h : b ≠ c) : a + b ≠ a + c := fun e => h (by simpa using e)

/-- Calm speaks of these elements only. -/
theorem Calm.congr {s t : State} (h : Calm s) (h1 : t.cfg = s.cfg) (h2 : t.asked = s.asked) (h3 : t.ie = s.ie)
    (h4 : t.nvBusy = s.nvBusy) (h5 : t.startF = s.startF) (h6 : t.ocb = s.ocb) (h7 : t.t0 = s.t0) (h8 : t.phase = s.phase)
    (h9 : t.oca = s.oca) : Calm t where
  cfg := h1.trans h.cfg
  asked := h2.trans h.asked
  ie := h3.trans h.ie
  nvBusy := h4.trans h.nvBusy
  startF := h5.trans h.startF
  ocb := by rw [h6, h7, h.ocb]
  oca e := by rw [h9, h7]; exact h.oca (h8 ▸ e)

/-- The compare event is over at once, and nothing else comes due by it. -/
theorem Calm.compareEvent {s : State} (h : Calm s) (hd : compareDue s = true) :
    Calm (compareEvent s) ∧ compareDue (Machine.compareEvent s) = false := by
  unfold Machine.compareEvent
  rw [takeInterrupt_enabled h.ie]
  cases ha : evADue s with
  | true =>
    rw [if_pos rfl]
    simp only [evADue, Bool.and_eq_true, decide_eq_true_eq] at ha
    refine ⟨⟨h.cfg, h.asked, h.ie, h.nvBusy, h.startF, h.ocb, fun e => nomatch e⟩, ?_⟩
    have hn : s.cnt ≠ s.ocb := by
      rw [ha.2, h.oca ha.1, h.ocb]
      exact add_left_ne _ _ _ (by decide)
    simp [compareDue, evADue, evBDue, hn]
  | false =>
    have hb : evBDue s = true := by simpa [compareDue, ha] using hd
    rw [if_neg (by simp), if_pos hb]
    refine ⟨⟨h.cfg, h.asked, h.ie, h.nvBusy, h.startF, ?_, fun _ => ?_⟩, ?_⟩
    · show s.cnt + BitVec.ofNat 16 s.cfg.scanPeriod = s.cnt + 8000#16
      rw [h.cfg]; rfl
    · show s.cnt + BitVec.ofNat 16 s.cfg.captureLimit = s.cnt + 5000#16
      rw [h.cfg]; rfl
    · have hn : s.cnt ≠ s.cnt + BitVec.ofNat 16 s.cfg.captureLimit := by
        rw [h.cfg]
        simpa using add_left_ne s.cnt 0 (BitVec.ofNat 16 Params.reference.captureLimit) (by decide)
      simpa [compareDue, evADue, evBDue] using hn

/-- The main context is between operations, no read of the store half done. -/
def Between (s : State) : Prop := s.main = .loop ∧ s.lowByte = none

/-- A tick of the counter or of the debounce timer, or the compare event that comes first. -/
theorem Calm.otherStep {s : State} (h : Calm s) (m : Move) (hm : m = .tick ∨ m = .evD) :
    ∃ t, otherStep exec m s = .next t ∧ Calm t ∧ (Between s → Between t) ∧ (compareDue s = true → compareDue t = false) := by
  cases hd : compareDue s with
  | true =>
    obtain ⟨h1, h2⟩ := h.compareEvent hd
    refine ⟨putBack m (Machine.compareEvent s), ?_, h1.congr rfl rfl rfl rfl rfl rfl rfl rfl rfl,
      fun b => ⟨(compareEvent_frame s).main.trans b.1, (compareEvent_frame s).lowByte.trans b.2⟩, fun _ => h2⟩
    have hf : compareFirst m s = true := by rcases hm with rfl | rfl <;> simp [compareFirst, afterCompare, h.ie, hd]
    simp [Machine.otherStep, hf]
  | false =>
    refine ⟨agentMove m s, (otherStep_free (by simp [compareFirst, hd]) ?_ ?_).trans ?_, ?_,
      fun b => ⟨(agentMove_frame m s).main.trans b.1, (agentMove_frame m s).lowByte.trans b.2⟩, fun e => nomatch e⟩
    · rcases hm with rfl | rfl <;> simp [lowersClock]
    · rcases hm with rfl | rfl <;> simp [mustWait, h.ie]
    · rcases hm with rfl | rfl <;> rfl
    · rcases hm with rfl | rfl
      · show Calm (tick s)
        rw [tick, if_neg (by simp [hd, h.ie])]
        exact h.congr rfl rfl rfl rfl rfl rfl rfl rfl rfl
      · show Calm (evD s)
        rw [evD, takeInterrupt_enabled h.ie]
        exact h.congr rfl rfl rfl rfl rfl rfl rfl rfl rfl

/-- `DISPATCH` with no start pending. -/
theorem Calm.dispatch {s : State} (h : Calm s) (hm : s.main = .loop) : mainStep exec .dispatch s = .next s := by
  unfold mainStep
  rw [hm]
  simp [awaitAddress, h.startF, h.cfg, Params.reference]

/-- At most `k` further steps of `CONVERT` are needed to be between operations. -/
def Left (k : Nat) (s : State) : Prop :=
  match s.main with
  | .loop => s.lowByte = none ∧ (s.updated = true → 9 ≤ k)
  | .convertFlag _ _ => s.lowByte = none ∧ s.updated = false ∧ 8 ≤ k
  | .convertMin _ _ => s.updated = false ∧ (if s.lowByte = none then 7 else 6) ≤ k
  | .convertMax _ _ _ => s.updated = false ∧ (if s.lowByte = none then 5 else 4) ≤ k
  | .convertFactor _ _ _ => s.updated = false ∧ (if s.lowByte = none then 3 else 2) ≤ k
  | .convertOut _ _ _ _ => s.lowByte = none ∧ s.updated = false ∧ 1 ≤ k
  | _ => False

theorem Left.between {s : State} (h : Left 0 s) : Between s := by
  unfold Left at h
  split at h
  · exact ⟨‹_›, h.1⟩
  · omega
  · have := h.2
    split at this <;> omega
  · have := h.2
    split at this <;> omega
  · have := h.2
    split at this <;> omega
  · omega
  · exact h.elim

/-- No write is in flight, so a step that reads a word of the store takes its low byte, or its high byte and the word is complete (R64). -/
theorem Calm.readsWord {s : State} (h : Calm s) (w : Fin 12) :
    (∃ b, s.lowByte = none ∧ nvRead16 w s = (none, { s with lowByte := some b })) ∨
    ∃ v lo, s.lowByte = some lo ∧ nvRead16 w s = (some v, { s with lowByte := none }) := by
  cases hb : s.lowByte with
  | none => exact .inl ⟨_, rfl, nvRead16_low h.nvBusy hb⟩
  | some lo => exact .inr ⟨_, lo, rfl, nvRead16_high h.nvBusy hb⟩

/-- One step of `CONVERT`. -/
theorem Calm.convert {s : State} {k : Nat} (h : Calm s) (hl : Left (k + 1) s) :
    ∃ t, mainStep exec .convert s = .next t ∧ Calm t ∧ Left k t := by
  unfold Left at hl
  unfold mainStep
  split at hl <;> rename_i hm
  · refine ⟨convertTake s, by rw [hm], ?_⟩
    unfold convertTake takeSample critical
    cases hu : s.updated with
    | false => exact ⟨h.congr rfl rfl rfl rfl rfl rfl rfl rfl rfl, by simp [Left, hm, hl.1]⟩
    | true => exact ⟨h.congr rfl rfl rfl rfl rfl rfl rfl rfl rfl, hl.1, rfl, by have := hl.2 hu; omega⟩
  · refine ⟨convertFlag _ _ s, by rw [hm], ?_⟩
    unfold convertFlag
    split
    · exact ⟨h.congr rfl rfl rfl rfl rfl rfl rfl rfl rfl, by simp [Left, hl.1, hl.2.1]⟩
    · exact ⟨h.congr rfl rfl rfl rfl rfl rfl rfl rfl rfl, by simp [Left, hl.1, hl.2.1]; omega⟩
  · refine ⟨convertMin _ _ s, by rw [hm], ?_⟩
    unfold convertMin
    rcases h.readsWord (trimWord _ _) with ⟨b, hb, e⟩ | ⟨v, lo, hb, e⟩ <;> rw [e] <;> rw [hb] at hl <;>
      exact ⟨h.congr rfl rfl rfl rfl rfl rfl rfl rfl rfl, by simp [Left, hm] at hl ⊢; omega⟩
  · refine ⟨convertMax _ _ _ s, by rw [hm], ?_⟩
    unfold convertMax
    rcases h.readsWord (trimWord _ _) with ⟨b, hb, e⟩ | ⟨v, lo, hb, e⟩ <;> rw [e] <;> rw [hb] at hl <;>
      exact ⟨h.congr rfl rfl rfl rfl rfl rfl rfl rfl rfl, by simp [Left, hm] at hl ⊢; omega⟩
  · refine ⟨convertFactor _ _ _ s, by rw [hm], ?_⟩
    unfold convertFactor
    rcases h.readsWord (trimWord _ _) with ⟨b, hb, e⟩ | ⟨v, lo, hb, e⟩ <;> rw [e] <;> rw [hb] at hl <;>
      exact ⟨h.congr rfl rfl rfl rfl rfl rfl rfl rfl rfl, by simp [Left, hm] at hl ⊢; omega⟩
  · refine ⟨convertOut _ _ _ _ s, by rw [hm], ?_⟩
    unfold convertOut convertByte
    split <;> exact ⟨h.congr rfl rfl rfl rfl rfl rfl rfl rfl rfl, by simp [Left, drawOutput, hl.1, hl.2.1]⟩
  · exact hl.elim

/-- One round of the agents. -/
def round : List Move :=
  [.tick, .tick, .evD, .evD, .dispatch, .convert, .convert, .convert, .convert, .convert, .convert, .convert, .convert, .convert]

/-- The agents in turn, for ever. -/
def roundRobin (n : Nat) : Move := round.getD (n % 14) .tick

/-- The state `n` moves into the run. -/
@[irreducible] def turn (n : Nat) : State := runOn roundRobin State.reset n

theorem turn_eq (n : Nat) : runOn roundRobin State.reset n = turn n := by unfold turn; rfl

theorem turn_zero : turn 0 = State.reset := (turn_eq 0).symm

theorem turn_succ {n : Nat} (h : Calm (turn n)) {t : State}
    (hs : moveStep exec (roundRobin n) { turn n with sched := [] } = .next t) : turn (n + 1) = t := by
  have h1 := (step_scheduled h.ok h.asked (roundRobin n) []).trans hs
  unfold turn at h1 ⊢
  simp only [runOn, h1]

theorem Calm.unscheduled {s : State} (h : Calm s) : Calm { s with sched := [] } := h.congr rfl rfl rfl rfl rfl rfl rfl rfl rfl

theorem turn_timer {n : Nat} {m : Move} (hr : roundRobin n = m) (hm : m = .tick ∨ m = .evD) (h : Calm (turn n)) :
    Calm (turn (n + 1)) ∧ (Between (turn n) → Between (turn (n + 1))) ∧ (compareDue (turn n) = true → compareDue (turn (n + 1)) = false) := by
  obtain ⟨t, h1, h2⟩ := h.unscheduled.otherStep m hm
  rw [turn_succ h (by rw [hr]; rcases hm with rfl | rfl <;> exact h1)]
  exact h2

theorem turn_dispatch {n : Nat} (hr : roundRobin n = .dispatch) (h : Calm (turn n)) (hm : Between (turn n)) :
    Calm (turn (n + 1)) ∧ Between (turn (n + 1)) := by
  rw [turn_succ h (by rw [hr]; exact h.unscheduled.dispatch hm.1)]
  exact ⟨h.unscheduled, hm⟩

theorem turn_convert {n k : Nat} (hr : roundRobin n = .convert) (h : Calm (turn n)) (hl : Left (k + 1) (turn n)) :
    Calm (turn (n + 1)) ∧ Left k (turn (n + 1)) := by
  obtain ⟨t, h1, h2⟩ := h.unscheduled.convert hl
  rw [turn_succ h (by rw [hr]; exact h1)]
  exact h2

theorem roundRobin_at (q i : Nat) (hi : i < 14) {m : Move} (hm : round.getD i .tick = m) : roundRobin (14 * q + i) = m := by
  unfold roundRobin
  rw [show (14 * q + i) % 14 = i by omega, hm]

/-- What holds in the course of a round that begins, calm and between operations, after `n` moves. -/
structure Round (n : Nat) : Prop where
  ticks : compareDue (turn n) = true → compareDue (turn (n + 1)) = false
  debounces : compareDue (turn (n + 2)) = true → compareDue (turn (n + 3)) = false
  calm : Calm (turn n)
  dispatches : (turn (n + 4)).main = .loop
  converts : (turn (n + 5)).main = .loop
  calmNext : Calm (turn (n + 14))
  next : Between (turn (n + 14))

theorem round_of_start {n : Nat} (hr : ∀ i, i < 14 → roundRobin (n + i) = round.getD i .tick) (h : Calm (turn n))
    (hm : Between (turn n)) : Round n := by
  obtain ⟨c1, m1, d1⟩ := turn_timer (hr 0 (by omega)) (.inl rfl) h
  obtain ⟨c2, m2, _⟩ := turn_timer (hr 1 (by omega)) (.inl rfl) c1
  obtain ⟨c3, m3, d3⟩ := turn_timer (hr 2 (by omega)) (.inr rfl) c2
  obtain ⟨c4, m4, _⟩ := turn_timer (hr 3 (by omega)) (.inr rfl) c3
  have l4 : Between (turn (n + 4)) := m4 (m3 (m2 (m1 hm)))
  obtain ⟨c5, l5⟩ := turn_dispatch (hr 4 (by omega)) c4 l4
  have k5 : Left 9 (turn (n + 5)) := by
    unfold Left
    rw [l5.1]
    exact ⟨l5.2, fun _ => Nat.le_refl 9⟩
  obtain ⟨c6, k6⟩ := turn_convert (hr 5 (by omega)) c5 k5
  obtain ⟨c7, k7⟩ := turn_convert (hr 6 (by omega)) c6 k6
  obtain ⟨c8, k8⟩ := turn_convert (hr 7 (by omega)) c7 k7
  obtain ⟨c9, k9⟩ := turn_convert (hr 8 (by omega)) c8 k8
  obtain ⟨c10, k10⟩ := turn_convert (hr 9 (by omega)) c9 k9
  obtain ⟨c11, k11⟩ := turn_convert (hr 10 (by omega)) c10 k10
  obtain ⟨c12, k12⟩ := turn_convert (hr 11 (by omega)) c11 k11
  obtain ⟨c13, k13⟩ := turn_convert (hr 12 (by omega)) c12 k12
  obtain ⟨c14, k14⟩ := turn_convert (hr 13 (by omega)) c13 k13
  exact ⟨d1, d3, h, l4.1, l5.1, c14, k14.between⟩

theorem every_round (q : Nat) : Round (14 * q) := by
  have hr (q i : Nat) (hi : i < 14) : roundRobin (14 * q + i) = round.getD i .tick := roundRobin_at q i hi rfl
  induction q with
  | zero =>
    have h : Calm (turn 0) := by
      rw [turn_zero]
      exact ⟨rfl, rfl, rfl, rfl, rfl, by decide, fun e => nomatch e⟩
    exact round_of_start (hr 0) h (by rw [show 14 * 0 = 0 from rfl, turn_zero]; exact ⟨rfl, rfl⟩)
  | succ q ih => exact round_of_start (hr (q + 1)) ih.calmNext ih.next

/-- The run is fair. -/
theorem roundRobin_fair : FairRun roundRobin State.reset := by
  constructor <;> try simp only [turn_eq]
  · intro n
    cases h : compareDue (turn (14 * n)) with
    | false => exact ⟨14 * n, by omega, roundRobin_at n 0 (by omega) rfl, h⟩
    | true => exact ⟨14 * n + 1, by omega, roundRobin_at n 1 (by omega) rfl, (every_round n).ticks h⟩
  · intro n
    cases h : compareDue (turn (14 * n + 2)) with
    | false => exact ⟨14 * n + 2, by omega, roundRobin_at n 2 (by omega) rfl, h⟩
    | true => exact ⟨14 * n + 3, by omega, roundRobin_at n 3 (by omega) rfl, (every_round n).debounces h⟩
  · exact fun n => ⟨14 * n, by omega, (every_round n).calm.nvBusy⟩
  · exact fun n => ⟨14 * n + 4, by omega, .inl (roundRobin_at n 4 (by omega) rfl)⟩
  · exact fun _ n => ⟨14 * n + 4, by omega, roundRobin_at n 4 (by omega) rfl, (every_round n).dispatches⟩
  · exact fun _ n => ⟨14 * n + 5, by omega, roundRobin_at n 5 (by omega) rfl, (every_round n).converts⟩

end Sys2Proof.Machine
end

