-- ==== Sys2Proof/Laws/PerInstr.lean ====
section
/-! SUPPORT. The statement made per instruction: the byte of a well-formed instruction decodes, in its context, to that instruction. -/

namespace Sys2Proof.Laws.RoundTrip

/-- The encoder and the decoder agree on this instruction (R90, R92). -/
def Statement (i : Instr) : Prop := i.wellFormed = true → decodeByte i.context (encodeByte i) = i

theorem addr (a : BitVec 7) (r : Bool) : Statement (.addr a r) := by
  intro _
  have h1 : (a ++ BitVec.ofBool r).extractLsb' 1 7 = a := by
    ext i hi
    simp only [BitVec.getElem_extractLsb', BitVec.getLsbD_append]
    rw [if_neg (by omega)]
    simp [hi, BitVec.getLsbD_eq_getElem]
  have h2 : (a ++ BitVec.ofBool r).getLsbD 0 = r := by
    rw [BitVec.getLsbD_append]
    cases r <;> rfl
  simp only [Instr.context, encodeByte, decodeByte, decodeAddress, h1, h2]

theorem rdAll : Statement .rdAll := fun _ => by decide
theorem rdX1 : Statement .rdX1 := fun _ => by decide
theorem rdY1 : Statement .rdY1 := fun _ => by decide
theorem rdX2 : Statement .rdX2 := fun _ => by decide
theorem rdY2 : Statement .rdY2 := fun _ => by decide
theorem rdBtn : Statement .rdBtn := fun _ => by decide
theorem calA1 : Statement .calA1 := fun _ => by decide
theorem calB1 : Statement .calB1 := fun _ => by decide
theorem calF1 : Statement .calF1 := fun _ => by decide
theorem calA2 : Statement .calA2 := fun _ => by decide
theorem calB2 : Statement .calB2 := fun _ => by decide
theorem calF2 : Statement .calF2 := fun _ => by decide
theorem rdRaw : Statement .rdRaw := fun _ => by decide
theorem rdTrim : Statement .rdTrim := fun _ => by decide

theorem opaqueMode (c : Byte) : Statement (.opaqueMode c) := by
  intro h
  simp only [Instr.wellFormed, Bool.not_eq_true'] at h
  have hne : ∀ k : Byte, namedCommand k = true → c ≠ k := by
    intro k hk e
    rw [e, hk] at h
    exact Bool.noConfusion h
  simp only [Instr.context, encodeByte, decodeByte, decodeCommand]
  rw [if_neg (hne _ (by decide)), if_neg (hne _ (by decide)), if_neg (hne _ (by decide)), if_neg (hne _ (by decide)),
    if_neg (hne _ (by decide)), if_neg (hne _ (by decide)), if_neg (hne _ (by decide)), if_neg (hne _ (by decide)),
    if_neg (hne _ (by decide)), if_neg (hne _ (by decide)), if_neg (hne _ (by decide)), if_neg (hne _ (by decide)),
    if_neg (hne _ (by decide)), if_neg (hne _ (by decide))]

end Sys2Proof.Laws.RoundTrip
end

