-- ==== Sys2Proof/Tests/Slice0.lean ====
section
/-! SUPPORT. Tests on fixed values, expected results taken from the tables of 30_encoding.md and the vectors of 95_test_vectors.md, and for each
statement with hypotheses a state that meets them. -/

namespace Sys2Proof.Tests

open Sys2Proof Sys2Proof.Machine

/-- The state an outcome goes on with. -/
def after (o : Host.Outcome State Fault Refusal) : Option State :=
  match o with
  | .next t => some t
  | .fault _ => none
  | .refused _ => none

/-- The bytes of a stream, if no fault ends it. -/
def bytes (r : Except Fault (List Byte)) : Option (List Byte) :=
  match r with
  | .ok bs => some bs
  | .error _ => none

/-- The refusal an outcome is. -/
def refusal (o : Host.Outcome State Fault Refusal) : Option Refusal :=
  match o with
  | .next _ => none
  | .fault _ => none
  | .refused r => some r

/-- What the state an outcome goes on with shows. -/
def seen {α : Type} (f : State → α) (o : Host.Outcome State Fault Refusal) : Option α := (after o).map f

/-- The reset state with this one move scheduled. -/
def idle (m : Move) : State := { State.reset with sched := [m] }

/-! ## Well-formedness and decoding -/

theorem test_wellFormed_refuses_named_values :
    [0x00#8, 0x05#8, 0x20#8, 0x25#8, 0x80#8, 0x81#8].all (fun c => !(Instr.opaqueMode c).wellFormed) = true := by decide

theorem test_wellFormed_admits_other_values :
    [0x06#8, 0x1F#8, 0x26#8, 0x7F#8, 0x82#8, 0xFF#8].all (fun c => (Instr.opaqueMode c).wellFormed) = true := by decide

theorem test_decode_addr : decodeByte .address 0b01010001#8 = .addr 0b0101000#7 true := by decide
theorem test_decode_rdAll : decodeByte .command 0b00000000#8 = .rdAll := by decide
theorem test_decode_rdX1 : decodeByte .command 0b00000001#8 = .rdX1 := by decide
theorem test_decode_rdY1 : decodeByte .command 0b00000010#8 = .rdY1 := by decide
theorem test_decode_rdX2 : decodeByte .command 0b00000011#8 = .rdX2 := by decide
theorem test_decode_rdY2 : decodeByte .command 0b00000100#8 = .rdY2 := by decide
theorem test_decode_rdBtn : decodeByte .command 0b00000101#8 = .rdBtn := by decide
theorem test_decode_calA1 : decodeByte .command 0b00100000#8 = .calA1 := by decide
theorem test_decode_calB1 : decodeByte .command 0b00100001#8 = .calB1 := by decide
theorem test_decode_calF1 : decodeByte .command 0b00100010#8 = .calF1 := by decide
theorem test_decode_calA2 : decodeByte .command 0b00100011#8 = .calA2 := by decide
theorem test_decode_calB2 : decodeByte .command 0b00100100#8 = .calB2 := by decide
theorem test_decode_calF2 : decodeByte .command 0b00100101#8 = .calF2 := by decide
theorem test_decode_rdRaw : decodeByte .command 0b10000000#8 = .rdRaw := by decide
theorem test_decode_rdTrim : decodeByte .command 0b10000001#8 = .rdTrim := by decide
theorem test_decode_opaque : decodeByte .command 0b01000010#8 = .opaqueMode 0x42#8 := by decide
theorem test_decode_no_byte : decodedInstr .command [] = none := by decide
theorem test_decodeTableWord : decodeTableWord 8 0x22 = some .calF1 := by decide

/-! ## The address byte, vectors B1 to B8 -/

/-- The reset state in the address phase. -/
def addressed : State := { State.reset with busState := .addressPhase, main := .awaitAddress }

/-- What the address byte leaves after the three writes of a match. -/
def accessOf (b : Byte) : Option (BusState × BitVec 7 × Bool) :=
  let i := decodeByte .address b
  (after (exec i addressed)).bind fun t => (after (exec i t)).bind fun u =>
    seen (fun v => (v.busState, v.matched, v.dir)) (exec i u)

theorem test_addr_match :
    accessOf 0x50#8 = some (.writeTransfer, 0x28#7, false) ∧ accessOf 0x51#8 = some (.readTransfer, 0x28#7, true) ∧
    accessOf 0x52#8 = some (.writeTransfer, 0x29#7, false) ∧ accessOf 0x53#8 = some (.readTransfer, 0x29#7, true) := by decide

theorem test_addr_no_match :
    accessOf 0x54#8 = some (.idle, 0, false) ∧ accessOf 0x4E#8 = some (.idle, 0, false) ∧
    accessOf 0x00#8 = some (.idle, 0, false) := by decide

/-! ## Commands, vectors M1 to M12 -/

/-- The start state of the command vectors. -/
def vec : State :=
  { State.reset with
    out := #v[0x10#8, 0x20#8, 0x30#8, 0x40#8], invalid := 0b1000#4, deb := 0b0101#4,
    raw := #v[0x04D2#16, 0xFFFF#16, 0x0064#16, 0x0FA0#16] }

/-- The first `n` bytes a read access returns after a command. -/
def reads (n : Nat) (c : Byte) : Option (List Byte) :=
  (after (exec (decodeByte .command c) vec)).bind fun t => bytes (streamBytes n { t with cursor := 0 })

/-- `MODE` after a command. -/
def modeAfter (c : Byte) : Option (Option Byte) := seen (fun t => t.mode) (exec (decodeByte .command c) vec)

theorem test_rdAll : reads 7 0x00#8 = some [0x10, 0x20, 0x30, 0x40, 0x85, 0x10, 0x20] := by decide
theorem test_rdX1 : reads 3 0x01#8 = some [0x10, 0x10, 0x10] := by decide
theorem test_rdY1 : reads 2 0x02#8 = some [0x20, 0x20] := by decide
theorem test_rdX2 : reads 2 0x03#8 = some [0x30, 0x30] := by decide
theorem test_rdY2 : reads 2 0x04#8 = some [0x40, 0x40] := by decide
theorem test_rdBtn : reads 2 0x05#8 = some [0x85, 0x85] := by decide
theorem test_rdRaw :
    reads 10 0x80#8 = some [0xD2, 0x04, 0xFF, 0xFF, 0x64, 0x00, 0xA0, 0x0F, 0xD2, 0x04] := by decide
theorem test_rdTrim : reads 6 0x81#8 = some [0x64, 0x00, 0xA0, 0x0F, 0x61, 0x00] := by decide
theorem test_opaque_mode : modeAfter 0x06#8 = some (some 0x06#8) ∧ modeAfter 0xFF#8 = some (some 0xFF#8) := by decide
theorem test_calA1_keeps_mode :
    seen (fun t => t.mode) (exec .calA1 { vec with mode := some 0#8 }) = some (some 0#8) := by decide

/-- The samples of A30, of P2 steps 1 and 3, and two of our own, with the command so far as given. -/
def cornerState (r0 r1 r2 r3 : Word) (q : Progress) : State := { vec with raw := #v[r0, r1, r2, r3], progress := q }

/-- These bytes of the store, the count of writes and the progress after one step of a command. -/
def stored (ks : List (Fin 24)) (o : Host.Outcome State Fault Refusal) : Option (List Byte × Nat × Progress) :=
  seen (fun t => (ks.map fun k => t.nvByte k, t.nvWrites, t.progress)) o

/-- A30: the samples, then the write of the Y channel. -/
theorem test_calA2_stores_corner :
    stored [] (exec .calA2 (cornerState 1 2 200 0xFFFF .fresh)) = some ([], 0, .cornerFirst 200 0xFFFF) ∧
    stored [18, 19] (exec .calA2 (cornerState 1 2 200 0xFFFF (.cornerSecond 0xFFFF))) = some ([0xFF, 0xFF], 1, .fresh) := by
  decide

/-- Program P2, step 1: the samples, then the write of the X channel. -/
theorem test_calA1_stores_corner :
    stored [] (exec .calA1 (cornerState 100 120 0 0 .fresh)) = some ([], 0, .cornerFirst 100 120) ∧
    stored [0, 1] (exec .calA1 (cornerState 100 120 0 0 (.cornerFirst 100 120))) = some ([0x64, 0x00], 1, .cornerSecond 120) := by
  decide

/-- Program P2, step 3. -/
theorem test_calB1_stores_corner :
    stored [2, 3] (exec .calB1 (cornerState 0 0 0 0 (.cornerFirst 4000 4100))) = some ([0xA0, 0x0F], 1, .cornerSecond 4100) ∧
    stored [8, 9] (exec .calB1 (cornerState 0 0 0 0 (.cornerSecond 4100))) = some ([0x04, 0x10], 1, .fresh) := by decide

/-- By R227 and R275. -/
theorem test_calB2_stores_corner :
    stored [14, 15] (exec .calB2 (cornerState 0 0 3000 3100 (.cornerFirst 3000 3100))) =
      some ([0xB8, 0x0B], 1, .cornerSecond 3100) ∧
    stored [20, 21] (exec .calB2 (cornerState 0 0 3000 3100 (.cornerSecond 3100))) = some ([0x1C, 0x0C], 1, .fresh) := by decide

/-- The corners of A31 in trim records 0 and 1, those of A21 and A22 in records 2 and 3, with these factors. -/
def trims (f0 f1 : Word) : State :=
  { State.reset with
    cfg := { Params.reference with trimDefault := #v[⟨100, 4000, f0⟩, ⟨120, 4100, f1⟩, ⟨200, 3000, f0⟩, ⟨210, 3100, f1⟩] } }

/-- A31, and P2 step 4: the factor is written only if it differs from the stored one. -/
theorem test_calF1_compares_factors :
    stored [] (exec .calF1 { trims 97 99 with progress := .recomputeFactor 0 100 4000, lowByte := some 97 }) = some ([], 0, .recomputeMin 1) ∧
    stored [] (exec .calF1 { trims 73 73 with progress := .recomputeFactor 0 100 4000, lowByte := some 73 }) =
      some ([], 0, .recomputeWrite 0 97) := by
  decide

/-- Program P2, step 4. -/
theorem test_calF1_writes_factors :
    stored [4, 5] (exec .calF1 { trims 73 73 with progress := .recomputeWrite 0 97 }) = some ([0x61, 0x00], 1, .recomputeMin 1) ∧
    stored [10, 11] (exec .calF1 { trims 73 73 with progress := .recomputeWrite 1 99 }) = some ([0x63, 0x00], 1, .fresh) := by decide

/-- A21 and A22, by R228. -/
theorem test_calF2_computes_factors :
    stored [] (exec .calF2 { trims 73 73 with progress := .recomputeFactor 2 200 3000, lowByte := some 73 }) =
      some ([], 0, .recomputeWrite 2 70) ∧
    stored [] (exec .calF2 { trims 73 73 with progress := .recomputeFactor 3 210 3100, lowByte := some 73 }) =
      some ([], 0, .recomputeWrite 3 72) := by
  decide

/-- R276: which corners a recomputation reads, 3100 being 0x0C1C, and that it waits while a write is in flight (R64). -/
theorem test_calF2_reads_corners :
    seen (fun t => t.lowByte) (exec .calF2 { trims 73 73 with progress := .recomputeMax 3 210 }) = some (some 0x1C#8) ∧
    stored [] (exec .calF2 { trims 73 73 with progress := .recomputeMax 3 210, lowByte := some 0x1C#8 }) =
      some ([], 0, .recomputeFactor 3 210 3100) ∧
    stored [] (exec .calF2 { trims 73 73 with progress := .recomputeMin 2, nvBusy := true }) = some ([], 0, .recomputeMin 2) := by
  decide

/-! ## The agents' steps -/

/-- C2, C8. -/
theorem test_evB :
    (let t := evB { State.reset with cnt := 8000 }
     (t.disch, t.drive, t.t0, t.capf, t.oca, t.ocb, t.phase)) =
      (false, 0b0001#4, 8000#16, false, 13000#16, 16000#16, .charging) ∧
    (let t := evB { State.reset with cnt := 64000, next := 2 }
     (t.t0, t.oca, t.ocb, t.drive)) = (64000#16, 3464#16, 6464#16, 0b0100#4) := by decide

/-- C5, C6, C9. -/
theorem test_evA :
    (let t := evA { State.reset with phase := .charging, cnt := 13000, oca := 13000, t0 := 8000, icr := 9234, capf := true }
     (t.rawAt 0, t.ready, t.updated, t.drive, t.disch, t.next, t.phase)) =
      (1234#16, 0, true, 0#4, true, 1, .discharging) ∧
    (evA { State.reset with phase := .charging, t0 := 8000, icr := 9234 }).rawAt 0 = 0xFFFF#16 ∧
    (evA { State.reset with phase := .charging, t0 := 64000, icr := 200, capf := true, next := 2 }).rawAt 2 = 1736#16 := by decide

/-- C4, C7, and C10's wrap of the channel. -/
theorem test_trip_ignored_and_channel_wraps :
    (trip { State.reset with phase := .charging, cnt := 10000, icr := 9234, capf := true }).icr = 9234#16 ∧
    (trip { State.reset with cnt := 14000 }).capf = false ∧
    (evA { State.reset with phase := .charging, next := 3 }).next = 0 := by decide

/-- D1, D4, D6. -/
theorem test_debounce :
    (let t := evD { State.reset with btnIn := 0b0001#4, dbc := #v[3, 0, 0, 0] }
     (t.dbc[0], t.deb)) = (0, 0b0001#4) ∧
    (let t := evD { State.reset with btnIn := 0b0001#4, deb := 0b0001#4, dbc := #v[2, 0, 0, 0] }
     (t.dbc[0], t.deb)) = (0, 0b0001#4) ∧
    (let t := evD { State.reset with btnIn := 0b1010#4, dbc := #v[3, 3, 3, 3] }
     (t.dbc, t.deb)) = (#v[0, 0, 0, 0], 0b1010#4) := by decide

/-- B9. -/
theorem test_rxByte :
    (let t := agentMove (.wbyte 0x41#8)
        { State.reset with xfer := .rxData (.const true), bitcnt := 8, peerScl := true }
     (t.xfer, t.hostSaw)) = (.finished (.byte 0x41#8), some (.ack true)) := by decide +kernel

/-- R160: a receiver whose primitive a latched start aborts at the first bit holds the clock, and the host stops there. -/
theorem test_stretch_in_the_middle :
    (let s := { addressed with xfer := .rxData (.addressMatch 0x7E#7), bitcnt := 8, peerScl := true, startF := true }
     ((agentMove (.wbyte 0x50#8) s).sclPull, moveRest (.wbyte 0x50#8) s)) =
      (true, some (.wrest [true, false, true, false, false, false, false])) := by decide +kernel

/-- B10, B11. -/
theorem test_txByte :
    (let t := agentMove (.rbyte true) { State.reset with xfer := .txData, sr := 0xA5#8, bitcnt := 8, peerScl := true }
     (t.xfer, t.hostSaw)) = (.finished .acked, some (.byte 0xA5#8)) ∧
    (agentMove (.rbyte false) { State.reset with xfer := .txData, sr := 0xA5#8, bitcnt := 8, peerScl := true }).xfer =
      .finished .nacked := by decide +kernel

/-- B14. -/
theorem test_idle_host_byte :
    (let t := agentMove (.wbyte 0x10#8) State.reset
     (t.hostSaw, t.sr, t.busState, t.xfer)) = (some (.ack false), 0#8, .idle, .halted) := by decide +kernel

/-- A1, A3, A5, A8, A10, A12. -/
theorem test_convert :
    [(100, 100), (117, 100), (4000, 100), (4200, 100), (50, 100), (0, 1000)].map
      (fun p : Word × Word => convertValue Params.reference p.1 p.2 97) =
      [some 8, some 9, some 249, some 255, some 5, some 0] := by decide

/-- A14. -/
theorem test_convert_without_subtraction :
    convertValue { Params.reference with convertSubtractMin := false } 2050 100 97 = some 134 := by decide

/-- A15, A16: the flag, and the output only of a valid sample. -/
theorem test_convert_flag :
    (let t := convertFlag 0 4999 { State.reset with invalid := 0b0001#4 }
     (t.invalid, t.main)) = (0#4, .convertMin 0 4999) ∧
    (let t := convertFlag 0 5000 { State.reset with out := #v[0x33, 0, 0, 0] }
     (t.outAt 0, t.invalid, t.main)) = (0x33#8, 0b0001#4, .loop) := by decide

/-- R78, R63, R68: the maximum 4000 of channel 0, its low byte and then its high byte, is read before the factor. -/
theorem test_convert_max :
    (let t := convertMax 0 4999 100 State.reset
     let u := convertMax 0 4999 100 t
     (t.lowByte, u.lowByte, u.main)) = (some 0xA0#8, none, .convertFactor 0 4999 100) := by decide

/-- A15: 4899 * 6 / 97 + 8 clamps to 255. -/
theorem test_convert_out :
    (let t := convertOut 0 4999 100 97 State.reset
     (t.outAt 0, t.main)) = (255#8, .loop) := by decide

/-- A19, A23 to A27. -/
theorem test_scaleFactor :
    [(100, 4000), (0, 65535), (100, 139), (100, 140), (100, 100), (4000, 100)].map
      (fun p : Word × Word => scaleFactorValue p.1 p.2) =
      [some 97, some 1638, some 0, some 1, some 0, none] := by decide

/-- A28, A29. -/
theorem test_store :
    (nvWrite16 0 0x0FA0#16 State.reset).map (fun t => (t.nvByte 0, t.nvByte 1, t.nvBusy, t.nvWrites)) =
      some (0xA0#8, 0x0F#8, true, 1) ∧
    (nvWrite16 0 0x0FA0#16 State.reset).map (fun t =>
      ((nvRead16 0 t).1, (nvRead16 0 (retire t)).2.lowByte, (nvRead16 0 (nvRead16 0 (retire t)).2).1, nvRead8 1 (retire t))) =
      some (none, some 0xA0#8, some 0x0FA0#16, some 0x0F#8) := by decide

theorem test_withFetchWord :
    seen (fun t => (t.mode, t.main, t.busState)) (step (State.reset.withFetchWord 8 0x80)) =
      some (some 0x80#8, .endAccess, .writeTransfer) := by decide

/-- R168, R163: the controller backend takes its own address byte and drops another. -/
theorem test_controller_address :
    (let s : State := { State.reset with
       cfg := { Params.reference with backend := .controller }, startF := true, bitcnt := 8, peerScl := true,
       xfer := .rxData (.addressMatch 0x7E#7) }
     ((agentMove (.wbyte 0x51#8) s).xfer, (agentMove (.wbyte 0x51#8) s).startF,
       (agentMove (.wbyte 0x54#8) s).xfer, (agentMove (.wbyte 0x54#8) s).startF)) =
      (.finished (.byte 0x51#8), true, .halted, false) := by decide +kernel

/-! ## States that meet the hypotheses of the statements -/

theorem witness_DecodeAndEncodeAgree :
    (Instr.opaqueMode 0xFF#8).wellFormed = true ∧ (Instr.addr 0x7F#7 true).wellFormed = true := by decide

theorem witness_AddressMatchIsMaskedEquality :
    Params.reference.slaveAddr.getLsbD 0 = false ∧ addressMatches Params.reference 0b1111110#7 0x29#7 = true ∧
      addressMatches Params.reference 0b1111110#7 0x2A#7 = false := by decide

/-- The block goes on, with this one move scheduled. -/
abbrev Goes (s : State) (m : Move) : Prop := s.cfg.ok = true ∧ s.asked = none ∧ s.sched = [m]

/-- The reset state with a command delivered. -/
def delivered (c : Byte) : State := { State.reset with main := .execute c, busState := .writeTransfer, sched := [.dispatch] }

theorem witness_StepExecutesCommandByte :
    Goes (delivered 0x22#8) .dispatch ∧ (delivered 0x22#8).main = .execute 0x22#8 ∧
      decode .command [0x22#8] = .ok (.calF1, []) := ⟨by decide, rfl, rfl⟩

/-- The reset state with a complete address byte. -/
def addressComplete (r : Status) : State := { addressed with xfer := .finished r, sched := [.dispatch] }

theorem witness_StepExecutesAddressByte :
    Goes (addressComplete (.byte 0x51#8)) .dispatch ∧ (addressComplete (.byte 0x51#8)).main = .awaitAddress ∧
      (addressComplete (.byte 0x51#8)).xfer = .finished (.byte 0x51#8) ∧
      decode .address [0x51#8] = .ok (.addr 0x28#7 true, []) := ⟨by decide, rfl, rfl, rfl⟩

/-- A state on the controller backend (R168). -/
def onController (s : State) : State := { s with cfg := { Params.reference with backend := .controller } }

theorem witness_reset_inv : Inv State.reset where
  cap := ⟨by decide, by decide, by decide, by decide, by decide, by decide, by decide⟩
  debounce := by unfold DebInv; decide
  bus := ⟨by decide, by decide, by decide, by decide, by decide, by decide⟩
  stream := fun h => absurd h (by decide)
  wordRead := fun _ => rfl
  memory := by decide
  enabled := rfl

theorem witness_controller_inv : Inv (onController State.reset) where
  cap := ⟨by decide, by decide, by decide, by decide, by decide, by decide, by decide⟩
  debounce := by unfold DebInv; decide
  bus := ⟨by decide, by decide, by decide, by decide, by decide, by decide⟩
  stream := fun h => absurd h (by decide)
  wordRead := fun _ => rfl
  memory := by decide
  enabled := rfl

/-- The free idle block, on this backend, an address that matches, and command bytes on both sides of 32 and of 37. -/
theorem witness_WriteAccessExecutesCommand :
    (Inv State.reset ∧ State.reset.cfg.ok = true ∧ State.reset.asked = none ∧ quiescent State.reset = true ∧
      busFree State.reset = true ∧ addressMatches State.reset.cfg State.reset.cfg.addrMask 0x29#7 = true) ∧
    (Inv (onController State.reset) ∧ (onController State.reset).cfg.ok = true ∧ (onController State.reset).asked = none ∧
      quiescent (onController State.reset) = true ∧ busFree (onController State.reset) = true ∧
      addressMatches (onController State.reset).cfg (onController State.reset).cfg.addrMask 0x28#7 = true) ∧
    [31#8, 32#8, 37#8, 38#8].map (fun c => decide (32 ≤ c.toNat ∧ c.toNat ≤ 37)) = [false, true, true, false] :=
  ⟨⟨witness_reset_inv, by decide, rfl, by decide, by decide, by decide⟩,
    ⟨witness_controller_inv, by decide, rfl, by decide, by decide, by decide⟩, by decide⟩

/-- Each write of a match, the whole of it, and addresses on both sides of the pair that matches. -/
theorem witness_AddressByteBeginsAccessOrIdles :
    (addressed.cfg.servesSlave = true ∧ addressMatches addressed.cfg addressed.cfg.addrMask 0x28#7 = true ∧
      addressed.progress = .fresh ∧ { addressed with progress := .addressDir }.progress = .addressDir ∧
      { addressed with progress := .addressState }.progress = .addressState ∧
      addressMatches addressed.cfg addressed.cfg.addrMask 0x29#7 = true ∧
      addressMatches addressed.cfg addressed.cfg.addrMask 0x2A#7 = false ∧
      addressMatches addressed.cfg addressed.cfg.addrMask 0x27#7 = false ∧
      (onController addressed).cfg.servesSlave = true) ∧
    (let s := addressComplete (.byte 0x51#8)
     s.cfg.ok = true ∧ s.asked = none ∧ s.main = .awaitAddress ∧ s.progress = .fresh ∧
       s.xfer = .finished (.byte (0x28#7 ++ BitVec.ofBool true))) := by decide

/-- The reset state after the peer's start condition. -/
def started : State := { idle .dispatch with startF := true, peerScl := true, peerSda := true }

/-- An idle controller that has received its address. -/
def completed : State :=
  onController { idle .dispatch with
    startF := true, peerScl := true, sclPull := true, sr := 0x51#8, xfer := .finished (.byte 0x51#8) }

theorem witness_AwaitAddressPolls :
    (Goes (idle .dispatch) .dispatch ∧ (idle .dispatch).main = .loop ∧ (idle .dispatch).cfg.backend = .shiftRegister ∧
      (idle .dispatch).startF = false) ∧
    (Goes (onController started) .dispatch ∧ (onController started).main = .loop ∧
      (onController started).cfg.backend = .controller ∧ ∀ b, (onController started).xfer ≠ .finished (.byte b)) ∧
    (Goes started .dispatch ∧ started.main = .loop ∧ started.cfg.backend = .shiftRegister ∧ started.busState = .idle ∧
      started.startF = true) ∧
    (Goes completed .dispatch ∧ completed.main = .loop ∧ completed.cfg.backend = .controller ∧ completed.busState = .idle ∧
      ∃ b, completed.xfer = .finished (.byte b)) ∧
    (let s := { started with main := .startSeen, sclPull := true }
     Goes s .dispatch ∧ s.main = .startSeen) ∧
    (let s := { started with main := .startTaken, startF := false, sclPull := true }
     Goes s .dispatch ∧ s.main = .startTaken ∧ s.cfg.backend = .shiftRegister) ∧
    (let s := { completed with main := .startTaken, startF := false }
     Goes s .dispatch ∧ s.main = .startTaken ∧ s.cfg.backend = .controller) :=
  ⟨by decide, ⟨by decide, rfl, rfl, fun _ h => nomatch h⟩, by decide, ⟨by decide, rfl, rfl, rfl, _, rfl⟩, by decide, by decide,
    by decide⟩

/-- At the entry of `RxByte`, the clock as given. -/
def entering (e : RxEntry) (u : RxUse) (peer pull startF stopF : Bool) : State :=
  { addressed with
    main := .rxEntry e u, busState := if u = .address then .addressPhase else .writeTransfer, bitcnt := 8
    peerScl := peer, sclPull := pull, startF := startF, stopF := stopF, sched := [.dispatch] }

/-- The four writes, the last with the clock held by the peer, by nobody, and by the block alone with and without a condition sensed. -/
theorem witness_RxByteEntryLoadsTheShifter :
    (let s := entering .clearStop .command true true false false
     Goes s .dispatch ∧ s.main = .rxEntry .clearStop .command) ∧
    (let s := entering .releaseData .address true true false false
     Goes s .dispatch ∧ s.main = .rxEntry .releaseData .address ∧ s.scl = false) ∧
    (let s := entering .releaseData .address false false false false
     Goes s .dispatch ∧ s.main = .rxEntry .releaseData .address ∧ s.sdaPull = false) ∧
    (let s := entering .loadCount .command true true false false
     Goes s .dispatch ∧ s.main = .rxEntry .loadCount .command) ∧
    (let s := entering .releaseClock .address true true false false
     Goes s .dispatch ∧ s.main = .rxEntry .releaseClock .address ∧ s.peerScl = true) ∧
    (let s := entering .releaseClock .command false false false false
     Goes s .dispatch ∧ s.main = .rxEntry .releaseClock .command ∧ s.sclPull = false) ∧
    (let s := entering .releaseClock .command false true false false
     Goes s .dispatch ∧ s.main = .rxEntry .releaseClock .command ∧ s.peerScl = false ∧ s.sclPull = true ∧ s.bitcnt = 8 ∧
       s.sdaPull = false ∧ s.startF = false ∧ s.stopF = false) ∧
    (let s := entering .releaseClock .address false true true false
     Goes s .dispatch ∧ s.main = .rxEntry .releaseClock .address ∧ s.peerScl = false ∧ s.sclPull = true ∧ s.bitcnt = 8 ∧
       s.sdaPull = false ∧ s.startF = true ∧ s.busState ≠ .idle) := by decide

theorem witness_AbortedAddressKeepsStart :
    (Goes (addressComplete .aborted) .dispatch ∧ (addressComplete .aborted).main = .awaitAddress ∧
      (addressComplete .aborted).xfer = .finished .aborted ∧ (addressComplete .aborted).cfg.backend = .shiftRegister) ∧
    (Goes (onController (addressComplete .aborted)) .dispatch ∧ (onController (addressComplete .aborted)).startF = false) ∧
    (let s : State := onController { addressComplete .aborted with startF := true, peerScl := true, peerSda := true }
     Goes s .dispatch ∧ s.main = .awaitAddress ∧ s.xfer = .finished .aborted ∧ s.cfg.backend = .controller ∧ s.startF = true ∧
       s.sdaPull = false ∧ s.peerScl = true) := by decide

/-- A receiver at its first bit, the clock low. -/
def receiving (ack : AckPolicy) : State := { State.reset with xfer := .rxData ack, bitcnt := 8, peerScl := true }

theorem witness_HostByteIsReceivedAndAcknowledged :
    (let s := receiving (.const true)
     s.xfer = .rxData (.const true) ∧ s.bitcnt = 8 ∧ s.peerScl = true ∧ s.sclPull = false ∧ s.sdaPull = false ∧
       s.autonomous = false ∧ s.startF = false ∧ s.stopF = false) ∧
    (let s := onController { receiving (.addressMatch 0x7E#7) with startF := true }
     s.xfer = .rxData (.addressMatch 0x7E#7) ∧ s.bitcnt = 8 ∧ s.peerScl = true ∧ s.sclPull = false ∧ s.sdaPull = false ∧
       s.autonomous = true ∧ (AckPolicy.addressMatch 0x7E#7).eval s.cfg 0x51#8 = true ∧
       (AckPolicy.addressMatch 0x7E#7).eval s.cfg 0x54#8 = false) ∧
    (let s := { receiving (.addressMatch 0x7E#7) with
       startF := true, busState := .addressPhase, main := .awaitAddress, sched := [.wbyte 0x50#8] }
     Goes s (.wbyte 0x50#8) ∧ s.xfer = .rxData (.addressMatch 0x7E#7) ∧ s.bitcnt = 8 ∧ s.peerScl = true ∧ s.sclPull = false ∧ s.sdaPull = false ∧
       s.autonomous = false ∧ s.startF = true) := by decide

/-- A sender at its first bit, the clock low. -/
def sending (x : Byte) : State :=
  { State.reset with xfer := .txData, sr := x, bitcnt := 8, sdaPull := !x.getLsbD 7, peerScl := true }

theorem witness_HostReadsTheByteSent :
    (sending 0x5A#8).xfer = .txData ∧ (sending 0x5A#8).bitcnt = 8 ∧ (sending 0x5A#8).sr = 0x5A#8 ∧
      (sending 0x5A#8).sdaPull = !(0x5A#8).getLsbD 7 ∧ (sending 0x5A#8).startF = false ∧ (sending 0x5A#8).stopF = false ∧
      (sending 0x5A#8).peerScl = true ∧ (sending 0x5A#8).sclPull = false := by decide

theorem witness_IdleBlockIgnoresHostBytes :
    State.reset.xfer = .halted ∧ State.reset.busState = .idle ∧ State.reset.startF = false ∧
      State.reset.main.changingOver = false ∧ State.reset.sdaPull = false ∧ State.reset.sclPull = false := by decide

/-- A primitive of the main context in progress, the clock high, the peer's side of the data line as given. -/
def during (x : Xfer) (peerSda : Bool) : State := { State.reset with xfer := x, busState := .writeTransfer, peerSda := peerSda }

/-- No primitive, a byte in the middle, the ninth high phase of `TxByte`, and an idle controller. -/
theorem witness_StartConditionIsLatchedAndAborts :
    (State.reset.scl = true ∧ State.reset.sda = true ∧ State.reset.autonomous = false ∧ State.reset.xfer.active = false) ∧
    (let s := during (.rxData (.const true)) false
     s.scl = true ∧ s.sda = true ∧ s.autonomous = false ∧ s.xfer.active = true) ∧
    (let s := during (.txSampled false) false
     s.scl = true ∧ s.sda = true ∧ s.autonomous = false ∧ s.xfer.active = true) ∧
    (let s := onController State.reset
     s.scl = true ∧ s.sda = true ∧ s.autonomous = true) := by decide

/-- As above; the last state holds the data line. -/
theorem witness_StopConditionAborts :
    (let s := { State.reset with peerSda := true }
     s.scl = true ∧ s.sdaPull = false ∧ s.peerSda = true ∧ s.autonomous = false) ∧
    (let s := during (.rxData (.const true)) true
     s.scl = true ∧ s.sdaPull = false ∧ s.peerSda = true ∧ s.autonomous = false ∧ s.xfer.active = true) ∧
    (let s := during (.txSampled true) true
     s.scl = true ∧ s.sdaPull = false ∧ s.peerSda = true ∧ s.autonomous = false ∧ s.xfer.active = true) ∧
    (let s := onController { State.reset with peerSda := true, startF := true, xfer := .rxData (.addressMatch 0x7E#7) }
     s.scl = true ∧ s.sdaPull = false ∧ s.peerSda = true ∧ s.autonomous = true ∧ s.xfer.active = true) ∧
    (let s := onController { State.reset with peerSda := true }
     s.scl = true ∧ s.sdaPull = false ∧ s.peerSda = true ∧ s.autonomous = true ∧ s.xfer.active = false) ∧
    (sending 0x5A#8).sdaPull = true := by decide

/-- A byte being received, or sent, with both lines high. -/
def midByte (main : MainPoint) (x : Xfer) (b : BusState) : State :=
  { State.reset with main := main, xfer := x, busState := b, bitcnt := 5 }

theorem witness_ServedAfterRepeatedStart :
    (let s := midByte .receiveByte (.rxData (.const true)) .writeTransfer
     s.cfg.ok = true ∧ s.asked = none ∧ s.main = .receiveByte ∧ s.busState ≠ .idle ∧ s.xfer.active = true ∧ s.scl = true ∧
       s.sda = true ∧ s.cfg.backend = .shiftRegister) ∧
    (let s := onController (midByte .sendByte .txData .readTransfer)
     s.cfg.ok = true ∧ s.asked = none ∧ s.main = .sendByte ∧ s.busState ≠ .idle ∧ s.xfer.active = true ∧ s.scl = true ∧
       s.sda = true ∧ s.cfg.backend = .controller) := by decide

theorem witness_LineMovesTouchOnlyTransport :
    (∃ p, Move.peerSda true = .peerSda p) ∧ (∃ p, Move.peerScl true = .peerScl p) ∧ (∃ b, Move.wbyte 0#8 = .wbyte b) ∧
      (∃ a, Move.rbyte true = .rbyte a) ∧ (∃ bs, Move.wrest [true] = .wrest bs) ∧
      (∃ k acc a, Move.rrest 3 5#8 true = .rrest k acc a) :=
  ⟨⟨true, rfl⟩, ⟨true, rfl⟩, ⟨0#8, rfl⟩, ⟨true, rfl⟩, ⟨[true], rfl⟩, 3, 5#8, true, rfl⟩

/-- The main context in an access at the point `main`, the primitive as given. -/
def inAccess (main : MainPoint) (x : Xfer) (c : Byte) : State :=
  { State.reset with main := main, xfer := x, sr := c, sched := [.dispatch] }

theorem witness_EndAccessReleasesTheBus :
    (Goes (inAccess .endAccess .halted 0#8) .dispatch ∧ (inAccess .endAccess .halted 0#8).main = .endAccess) ∧
    (let s := { inAccess .endData .halted 0#8 with sclPull := true }
     Goes s .dispatch ∧ s.main = .endData ∧ s.scl = false) ∧
    (let s := inAccess .endData .halted 0#8
     Goes s .dispatch ∧ s.main = .endData ∧ s.sdaPull = false) ∧
    (let s := { inAccess .endClock .halted 0#8 with sclPull := true }
     Goes s .dispatch ∧ s.main = .endClock ∧ s.xfer = .halted ∧ s.startF = false) := by decide

theorem witness_ReceiveByteDeliversOrLeaves :
    (let s := { inAccess .writeAccess .halted 0#8 with busState := .writeTransfer }
     Goes s .dispatch ∧ s.main = .writeAccess ∧ s.busState = .writeTransfer) ∧
    (let s := inAccess .receiveByte (.finished (.byte 0x42#8)) 0x42#8
     Goes s .dispatch ∧ s.main = .receiveByte ∧ s.xfer = .finished (.byte 0x42#8) ∧ s.sr = 0x42#8) ∧
    (let s := { inAccess .receiveByte (.finished .aborted) 0#8 with startF := true }
     Goes s .dispatch ∧ s.main = .receiveByte ∧ s.xfer = .finished .aborted ∧ s.cfg.backend = .shiftRegister) ∧
    (let s := onController (inAccess .receiveByte (.finished .aborted) 0#8)
     Goes s .dispatch ∧ s.main = .receiveByte ∧ s.xfer = .finished .aborted ∧ s.startF = false) := by decide

theorem witness_ReadAccessGoesOnOnlyAfterAck :
    (Goes (inAccess .readAccess .halted 0#8) .dispatch ∧ (inAccess .readAccess .halted 0#8).main = .readAccess) ∧
    (let s := inAccess .sendByte (.finished .acked) 0#8
     Goes s .dispatch ∧ s.main = .sendByte ∧ s.xfer = .finished .acked) ∧
    (let s := inAccess .sendByte (.finished .nacked) 0#8
     Goes s .dispatch ∧ s.main = .sendByte ∧ s.xfer = .finished .nacked ∧ s.cfg.backend = .shiftRegister) ∧
    (let s := onController (inAccess .sendByte (.finished .aborted) 0#8)
     Goes s .dispatch ∧ s.main = .sendByte ∧ s.xfer = .finished .aborted ∧ s.startF = false) := by decide

/-- A read access about to fetch a byte, the clock low, as `StreamByte` is called. -/
def fetching : State := { inAccess .streamByte .halted 0#8 with busState := .readTransfer, mode := some 1#8, peerScl := true }

/-- Both directions of the test on `NV_BUSY`, each kind of byte fetched, and each write of the entry of `TxByte`. -/
theorem witness_FetchedByteIsOffered :
    (let s := { fetching with nvBusy := true, mode := some 129#8 }
     Goes s .dispatch ∧ s.main = .streamByte ∧ s.nvBusy = true ∧ s.mode = some 129#8) ∧
    (Goes fetching .dispatch ∧ fetching.main = .streamByte ∧ fetching.busState = .readTransfer ∧ fetching.nvBusy = false ∧
      fetchByte { fetching with sched := [] } = .ok (.byte 0#8, { fetching with sched := [] })) ∧
    ({ fetching with nvBusy := true }.mode ≠ some 129#8) ∧
    (Goes { fetching with main := .composeByte (.debounced 5#4) } .dispatch) ∧
    (Goes { fetching with main := .composeByte .snapshot } .dispatch) ∧
    (Goes { fetching with main := .advance 0xA5#8 } .dispatch) ∧
    (Goes { fetching with main := .txEntry .loadByte 0xA5#8 } .dispatch) ∧
    (let s := { fetching with main := .txEntry .setBit 0xA5#8, peerScl := true }
     Goes s .dispatch ∧ s.main = .txEntry .setBit 0xA5#8 ∧ s.scl = false) ∧
    (let s := { fetching with main := .txEntry .releaseClock 0xA5#8, peerScl := false, sclPull := true }
     Goes s .dispatch ∧ s.main = .txEntry .releaseClock 0xA5#8) :=
  ⟨by decide, ⟨by decide, rfl, rfl, rfl, rfl⟩, by decide, by decide, by decide, by decide, by decide, by decide, by decide⟩

theorem witness_MainContextWaitsForThePeer :
    (Goes (inAccess .awaitAddress .rxAck 0#8) .dispatch ∧ (inAccess .awaitAddress .rxAck 0#8).main = .awaitAddress ∧
      (inAccess .awaitAddress .rxAck 0#8).xfer.active = true) ∧
    (inAccess .receiveByte .rxAck 0#8).main = .receiveByte ∧ (inAccess .sendByte (.txSampled true) 0#8).main = .sendByte ∧
    (inAccess .sendByte (.txSampled true) 0#8).xfer.active = true := by decide

/-- A state with a selector and a cursor. -/
def atCursor (c : Byte) (k : Fin 24) : State := { State.reset with mode := some c, cursor := k }

theorem witness_CursorAdvancesAndWraps :
    (CursorInStream (atCursor 0#8 4) ∧ 0 < (sourceOf (atCursor 0#8 4).mode).len) ∧
    (CursorInStream (atCursor 128#8 7) ∧ 0 < (sourceOf (atCursor 128#8 7).mode).len) ∧
    (CursorInStream (atCursor 129#8 23) ∧ 0 < (sourceOf (atCursor 129#8 23).mode).len) :=
  ⟨⟨.inl (by decide), by decide⟩, ⟨.inl (by decide), by decide⟩, .inl (by decide), by decide⟩

theorem witness_OpaqueStoresAndYieldsNoSource :
    (Instr.opaqueMode 0x06#8).wellFormed = true ∧ State.reset.mode = none ∧ State.reset.cursor = 0 := by decide

theorem witness_StoreWriteThenRead :
    (State.reset.nvBusy = false ∧ Memory.wf State.reset.cfg State.reset.nv = true ∧ State.reset.lowByte = none) ∧
    Memory.wf vec.cfg [(0, 1#8), (23, 9#8)] = true ∧ { State.reset with nvBusy := true }.nvBusy = true := by decide

/-- `s` with a command byte just received. -/
def received (s : State) : State := { s with busState := .writeTransfer }

theorem witness_CornerCommandsStoreBothSamples :
    (commandReceived (received vec) = true ∧ Memory.wf (received vec).cfg (received vec).nv = true) ∧
    commandReceived { received vec with nvBusy := true, sclPull := true } = true := by decide

theorem witness_CornerCommandSteps :
    ({ vec with progress := .fresh }.progress = .fresh) ∧
    (let s := { vec with progress := .cornerFirst 100 120, nvBusy := true }
     s.nvBusy = true ∧ s.progress = .cornerFirst 100 120) ∧
    (let s := { vec with progress := .cornerFirst 100 120 }
     s.nvBusy = false ∧ Memory.wf s.cfg s.nv = true ∧ s.progress = .cornerFirst 100 120) ∧
    (let s := { vec with progress := .cornerSecond 120 }
     s.nvBusy = false ∧ Memory.wf s.cfg s.nv = true ∧ s.progress = .cornerSecond 120) := by decide

theorem witness_RecomputeCommandsWriteOnlyChanges :
    commandReceived (received (trims 73 73)) = true ∧
      Memory.wf (received (trims 73 73)).cfg (received (trims 73 73)).nv = true := by decide

/-- Corners in order, equal, and reversed; the X and the Y channel of both joysticks. -/
theorem witness_RecomputeCommandSteps :
    ((trims 73 73).progress = .fresh ∧ (trims 73 73).nvBusy = false ∧ (trims 73 73).lowByte = none) ∧
    (let s := { trims 73 73 with progress := .recomputeMax 2 200, lowByte := some 0xB8#8 }
     s.nvBusy = false ∧ s.lowByte = some 0xB8#8 ∧ s.progress = .recomputeMax 2 200) ∧
    (let s := { trims 73 73 with progress := .recomputeWrite 1 99, nvBusy := true }
     s.nvBusy = true ∧ s.progress = .recomputeWrite 1 99) ∧
    (let s := { trims 73 73 with progress := .recomputeFactor 0 100 4000, lowByte := some 73 }
     s.lowByte = some 73 ∧ s.nvBusy = false ∧ s.progress = .recomputeFactor 0 100 4000 ∧ (100#16).toNat ≤ (4000#16).toNat ∧
       (100#16).toNat ≤ (100#16).toNat) ∧
    (let s := { trims 73 73 with progress := .recomputeFactor 3 101 100, lowByte := some 73 }
     s.lowByte = some 73 ∧ s.nvBusy = false ∧ s.progress = .recomputeFactor 3 101 100 ∧ (100#16).toNat < (101#16).toNat) ∧
    (let s := { trims 73 73 with progress := .recomputeWrite 1 99 }
     s.nvBusy = false ∧ s.progress = .recomputeWrite 1 99 ∧ Memory.wf s.cfg s.nv = true) ∧
    joystickX 0 = 0 ∧ joystickY 0 = 1 ∧ joystickX 1 = 2 ∧ joystickY 1 = 3 := by decide

theorem witness_RecomputeTwiceWritesOnce :
    commandReceived (received (trims 73 73)) = true ∧ Memory.wf (received (trims 73 73)).cfg (received (trims 73 73)).nv = true ∧
      ((trims 73 73).trim (joystickX 0) .min).toNat ≤ ((trims 73 73).trim (joystickX 0) .max).toNat ∧
      ((trims 73 73).trim (joystickY 0) .min).toNat ≤ ((trims 73 73).trim (joystickY 0) .max).toNat ∧
      ((trims 73 73).trim (joystickX 1) .min).toNat ≤ ((trims 73 73).trim (joystickX 1) .max).toNat ∧
      ((trims 73 73).trim (joystickY 1) .min).toNat ≤ ((trims 73 73).trim (joystickY 1) .max).toNat := by decide

theorem witness_CalibrationScenario :
    (let s := received { vec with raw := #v[100, 120, 0, 0] }
     commandReceived s = true ∧ Memory.wf s.cfg s.nv = true ∧ s.rawAt 0 = 100#16 ∧ s.rawAt 1 = 120#16) := by decide

/-- The capture engine at its phase-A deadline, 5000 ticks after the start of the charge of channel 0 at tick 8000. -/
def atDeadlineA (m : Move) : State :=
  { idle m with
    phase := .charging, drive := 0b0001#4, disch := false, t0 := 8000, cnt := 13000, oca := 13000, ocb := 16000,
    icr := 9234, capf := true }

theorem witness_deadline_cap (m : Move) : CapInv (atDeadlineA m) where
  pinsCharging := fun _ => ⟨rfl, rfl⟩
  pinsDischarging := fun h => nomatch h
  compareA := fun _ => by
    show 13000#16 = 8000#16 + BitVec.ofNat 16 5000
    decide
  compareB := by
    show 16000#16 = 8000#16 + BitVec.ofNat 16 8000
    decide
  beforeA := fun _ => by
    show (13000#16 - 8000#16).toNat ≤ 5000
    decide
  beforeB := by
    show (13000#16 - 8000#16).toNat ≤ 8000
    decide
  captured := fun _ _ => by
    show (9234#16 - 8000#16).toNat < 5000
    decide

/-- The main context of `s` in the middle of `CAL_A1`, a write in flight. -/
def storeWaiting (s : State) : State :=
  { s with main := .execute 0x20#8, busState := .writeTransfer, progress := .cornerSecond 120, nvBusy := true }

theorem witness_StoreWaitAdmitsInterrupts :
    (let s := storeWaiting (idle .dispatch)
     Goes s .dispatch ∧ accessCoherent s = true ∧ s.ie = true ∧ storeWaits s = true) ∧
    (let s := storeWaiting (idle .evD)
     Goes s .evD ∧ accessCoherent s = true ∧ s.ie = true ∧ storeWaits s = true ∧ compareDue s = false) ∧
    (let s := storeWaiting (atDeadlineA .tick)
     Goes s .tick ∧ accessCoherent s = true ∧ s.ie = true ∧ storeWaits s = true ∧ evADue s = true) ∧
    (let s := storeWaiting { idle .tick with cnt := 8000 }
     Goes s .tick ∧ accessCoherent s = true ∧ s.ie = true ∧ storeWaits s = true ∧ evBDue s = true) ∧
    (let s := { idle .retire with main := .convertMin 0 100, nvBusy := true }
     Goes s .retire ∧ accessCoherent s = true ∧ s.ie = true ∧ storeWaits s = true) := by decide

theorem witness_ConvertFormula : (97#16 : Word) ≠ 0 := by decide

theorem witness_ConvertBoundedAndMonotone :
    (100#16).toNat < (4000#16).toNat ∧ (4000#16).toNat ≤ Params.reference.captureLimit ∧
      scaleFactorValue 100#16 4000#16 = some 97#16 ∧ (97#16 : Word) ≠ 0 ∧ (100#16).toNat ≤ (100#16).toNat ∧
      (100#16).toNat ≤ (4000#16).toNat ∧ (4000#16).toNat ≤ (4000#16).toNat := by decide

theorem witness_ScaleFactorFormula :
    (100#16).toNat ≤ (100#16).toNat ∧ (100#16).toNat ≤ (139#16).toNat ∧ (100#16).toNat ≤ (140#16).toNat ∧
      (0#16).toNat ≤ (65535#16).toNat ∧ (99#16).toNat < (100#16).toNat := by decide

/-- A sample waiting for the converter. -/
def fresh (r : Word) : State := { idle .convert with updated := true, raw := #v[r, 0, 0, 0] }

theorem witness_ConvertStepEffect :
    (Goes (idle .convert) .convert ∧ (idle .convert).main = .loop ∧ (idle .convert).updated = false) ∧
    (Goes (fresh 5000) .convert ∧ (fresh 5000).main = .loop ∧ (fresh 5000).updated = true ∧
      (fresh 5000).cfg.captureLimit ≤ ((fresh 5000).rawAt (fresh 5000).ready).toNat) ∧
    (Goes (fresh 4999) .convert ∧ (fresh 4999).main = .loop ∧ (fresh 4999).updated = true ∧ (fresh 4999).nvBusy = false ∧
      (fresh 4999).lowByte = none ∧
      ((fresh 4999).rawAt (fresh 4999).ready).toNat < (fresh 4999).cfg.captureLimit) ∧
    (let s := { idle .convert with main := .convertMax 0 4999 100, nvBusy := true }
     Goes s .convert ∧ s.main = .convertMax 0 4999 100 ∧ s.nvBusy = true) ∧
    (let s := { idle .convert with main := .convertFactor 0 4999 100, nvBusy := true }
     Goes s .convert ∧ s.main = .convertFactor 0 4999 100 ∧ s.nvBusy = true) := by decide

theorem witness_TickAdvancesCounter :
    Goes (idle .tick) .tick ∧ (idle .tick).ie = true ∧ compareDue (idle .tick) = false := by decide

/-- The capture engine at its phase-B deadline, right after reset's first discharge. -/
def atDeadlineB (m : Move) : State := { idle m with cnt := 8000 }

theorem witness_EvBStartsCharging :
    Goes (atDeadlineB .tick) .tick ∧ (atDeadlineB .tick).ie = true ∧ (atDeadlineB .tick).phase = .discharging ∧
      (atDeadlineB .tick).cnt = (atDeadlineB .tick).ocb := by decide

theorem witness_EvARecordsSample :
    Goes (atDeadlineA .tick) .tick ∧ (atDeadlineA .tick).ie = true ∧ (atDeadlineA .tick).phase = .charging ∧
      (atDeadlineA .tick).cnt = (atDeadlineA .tick).oca := by decide

/-- The capture engine in a charge, no trip yet. -/
def charging (m : Move) : State := { atDeadlineA m with cnt := 9234, capf := false }

theorem witness_TripLatchesOnce :
    (Goes (charging (.cmp true)) (.cmp true) ∧ (charging (.cmp true)).ie = true ∧ compareDue (charging (.cmp true)) = false ∧
      (charging (.cmp true)).cmp = false ∧
      (charging (.cmp true)).phase = .charging ∧ (charging (.cmp true)).capf = false) ∧
    (Goes (idle (.cmp true)) (.cmp true) ∧ (idle (.cmp true)).ie = true ∧ compareDue (idle (.cmp true)) = false ∧
      (idle (.cmp true)).phase ≠ .charging) := by decide

theorem witness_CompareEventIsUrgent :
    (Goes (atDeadlineA .tick) .tick ∧ CapInv (atDeadlineA .tick) ∧ (atDeadlineA .tick).ie = true ∧
      compareDue (atDeadlineA .tick) = true) ∧
    (CapInv (atDeadlineA .evD) ∧ compareDue (atDeadlineA .evD) = true) ∧
    (CapInv (atDeadlineA (.cmp true)) ∧ compareDue (atDeadlineA (.cmp true)) = true) :=
  ⟨⟨by decide, witness_deadline_cap _, rfl, by decide⟩, ⟨witness_deadline_cap _, by decide⟩, witness_deadline_cap _, by decide⟩

/-- The start of a charge. -/
def chargeStart : State := evB (atDeadlineB .tick)

theorem witness_ChannelCycleTime :
    chargeStart.cfg.ok = true ∧ CapInv chargeStart ∧ chargeStart.ie = true ∧ chargeStart.phase = .charging ∧
      chargeStart.cnt = chargeStart.t0 ∧ 5000 ≤ chargeStart.cfg.captureLimit ∧ chargeStart.cfg.captureLimit < 5001 ∧
      8000 ≤ chargeStart.cfg.scanPeriod :=
  ⟨by decide, ⟨by decide, by decide, by decide, by decide, by decide, by decide, by decide⟩, by decide, by decide, by decide,
    by decide, by decide, by decide⟩

theorem witness_DebounceTickEffect :
    Goes (idle .evD) .evD ∧ (idle .evD).ie = true ∧ compareDue (idle .evD) = false := by decide

theorem witness_DebouncedBitLaw :
    (State.reset.cfg.wf = true ∧ State.reset.ie = true ∧ State.reset.dbc[(0 : Fin 4)] = 0 ∧
      (debRun ([1#4, 1#4, 1#4] ++ [1#4]) State.reset).deb.getLsbD 0 ≠ (debRun [1#4, 1#4, 1#4] State.reset).deb.getLsbD 0) ∧
    (State.reset.cfg.debThreshold ≤ [1#4, 1#4, 1#4, 1#4].length ∧
      ∀ q ∈ [1#4, 1#4, 1#4, 1#4], Bool.xor (q.getLsbD 0) State.reset.cfg.btnActiveLow =
        Bool.xor ((1#4).getLsbD 0) State.reset.cfg.btnActiveLow) := by decide

/-- A move made, a compare event before it, and the peer's lowering of the clock before it. -/
theorem witness_OtherAgentsLeaveMainContext :
    ((idle .tick).sched = [.tick] ∧ mainsMove .tick = false ∧ mustWait .tick (idle .tick) = false ∧
      step (idle .tick) = .next { State.reset with cnt := 1 }) ∧
    (mainsMove .evD = false ∧ compareFirst .evD (atDeadlineA .evD) = true ∧ (atDeadlineA .evD).sched = [.evD] ∧
      ∃ t, step (atDeadlineA .evD) = .next t) ∧
    (mainsMove (.wbyte 0#8) = false ∧ lowersClock (.wbyte 0#8) State.reset = true ∧ ∃ t, step (idle (.wbyte 0#8)) = .next t) :=
  ⟨⟨rfl, rfl, by decide, rfl⟩, ⟨rfl, by decide, rfl, _, rfl⟩, rfl, by decide, _, rfl⟩

theorem witness_MainContextLeavesCapAndDeb :
    (idle .dispatch).sched = [.dispatch] ∧ step (idle .dispatch) = .next State.reset := ⟨rfl, rfl⟩

/-- Command values on both sides of the calibration range. -/
theorem witness_NoCommandTouchesSamplesOrOutputs :
    [0x1F#8, 0x20#8, 0x25#8, 0x26#8].map (fun c => decide (32 ≤ c.toNat ∧ c.toNat ≤ 37)) = [false, true, true, false] := by decide

theorem witness_ResetMeetsInvariant :
    Params.reference.ok = true ∧ Memory.wf Params.reference [] = true ∧ Memory.wf Params.reference [(3, 7#8)] = true ∧
      { Params.reference with captureLimit := 0xFFFE, scanPeriod := 0xFFFF }.ok = true := by decide

theorem witness_idle_inv (m : Move) : Inv (idle m) where
  cap :=
    ⟨witness_reset_inv.cap.1, witness_reset_inv.cap.2, witness_reset_inv.cap.3, witness_reset_inv.cap.4,
      witness_reset_inv.cap.5, witness_reset_inv.cap.6, witness_reset_inv.cap.7⟩
  debounce := witness_reset_inv.debounce
  bus :=
    ⟨witness_reset_inv.bus.1, witness_reset_inv.bus.2, witness_reset_inv.bus.3, witness_reset_inv.bus.4,
      witness_reset_inv.bus.5, witness_reset_inv.bus.6⟩
  stream := witness_reset_inv.stream
  wordRead := fun _ => rfl
  memory := witness_reset_inv.memory
  enabled := rfl

theorem witness_StepKeepsInvariant :
    Inv (idle .tick) ∧ step (idle .tick) = .next { State.reset with cnt := 1 } := ⟨witness_idle_inv _, rfl⟩

theorem witness_RawSamplesStayInRange :
    (Inv (idle .tick) ∧ RawInRange (idle .tick) 3 ∧ step (idle .tick) = .next { State.reset with cnt := 1 }) ∧
    (Inv (atDeadlineA .tick) ∧ evADue (atDeadlineA .tick) = true) :=
  ⟨⟨witness_idle_inv _, .inr (by decide), rfl⟩,
    { cap := witness_deadline_cap _
      debounce := witness_reset_inv.debounce
      bus := ⟨by decide, by decide, by decide, by decide, by decide, by decide⟩
      stream := witness_reset_inv.stream
      wordRead := fun _ => rfl
      memory := witness_reset_inv.memory
      enabled := rfl }, by decide⟩

theorem witness_NoFatalPath :
    (Inv (idle .tick) ∧ (idle .tick).cfg.ok = true ∧ (idle .tick).asked = none) ∧
    (Inv (onController State.reset) ∧ (onController State.reset).cfg.ok = true ∧ (onController State.reset).asked = none) :=
  ⟨⟨witness_idle_inv _, by decide, rfl⟩, witness_controller_inv, by decide, rfl⟩

theorem witness_FairRunsSampleEveryChannel :
    Inv State.reset ∧ State.reset.cfg.ok = true ∧ State.reset.asked = none ∧ FairRun roundRobin State.reset :=
  ⟨witness_reset_inv, by decide, rfl, roundRobin_fair⟩

theorem witness_OutOfScopeIsRefused :
    ({ Params.reference with backend := .softwareBitbang }.backend = .softwareBitbang) ∧
    ({ Params.reference with captureLimit := 0 }.backend ≠ .softwareBitbang ∧
      { Params.reference with captureLimit := 0 }.wf = false ∧ { Params.reference with captureLimit := 8000 }.wf = false) ∧
    (let s := { idle .tick with asked := some .telemetryFrame }
     s.cfg.ok = true ∧ s.asked = some .telemetryFrame ∧ refusal (step s) = some (.excluded .telemetryFrame)) := by decide

end Sys2Proof.Tests
end

section
/-! PROOFS. What the scope leaves out is refused by name (R5, R8, R164). -/

namespace Sys2Proof.Machine

theorem servesSlave_iff (p : Params) : p.servesSlave = true ↔ p.backend ≠ .softwareBitbang := by
  simp [Params.servesSlave]

/-- The bit-bang backend is refused before anything else is looked at (R164). -/
theorem step_softwareBitbang {s : State} (h : s.cfg.backend = .softwareBitbang) : step s = .refused .softwareBitbangSlave := by
  have hs : s.cfg.servesSlave = false := by simp [Params.servesSlave, h]
  simp [step, stepWith, hs]

/-- Next a configuration that breaks R8. -/
theorem step_illFormed {s : State} (hb : s.cfg.backend ≠ .softwareBitbang) (hw : s.cfg.wf = false) :
    step s = .refused .illFormedConfig := by
  have hs := (servesSlave_iff s.cfg).mpr hb
  simp [step, stepWith, hs, hw]

/-- Next an operation out of scope that is asked for (R5). -/
theorem step_asked {s : State} {op : ExcludedOp} (hc : s.cfg.ok = true) (ha : s.asked = some op) :
    step s = .refused (.excluded op) := by
  obtain ⟨hw, hs⟩ : s.cfg.wf = true ∧ s.cfg.servesSlave = true := by simpa [Params.ok] using hc
  simp [step, stepWith, hs, hw, ha]

/-- Settles O60: the three tests of `stepWith`, in their order, come before any agent's move. -/
theorem outOfScopeIsRefused : Obligations.OutOfScopeIsRefused :=
  fun _ => ⟨step_softwareBitbang, step_illFormed, fun _ => step_asked⟩

end Sys2Proof.Machine
end

section
/-! PROOFS. What the bus invariant says, point by point of the main context and primitive by primitive. -/

namespace Sys2Proof.Machine

/-- `t` with everything the bus invariant reads taken from `s`. -/
def withBus (s t : State) : State :=
  { t with
    cfg := s.cfg, sdaPull := s.sdaPull, sclPull := s.sclPull, sr := s.sr, bitcnt := s.bitcnt, startF := s.startF,
    busState := s.busState, matched := s.matched, dir := s.dir, xfer := s.xfer, main := s.main, progress := s.progress }

/-- `t` differs from `s` in nothing the bus invariant reads. -/
def BusSame (s t : State) : Prop := withBus s t = t

theorem BusInv.same {s t : State} (h : BusInv s) (f : BusSame s t) : BusInv t := by
  rw [← f]
  exact ⟨h.1, h.2, h.3, h.4, h.5, h.6⟩

/-- The main context is between operations or in `CONVERT`. -/
def MainPoint.resting : MainPoint → Bool
  | .loop => true
  | .convertFlag _ _ => true
  | .convertMin _ _ => true
  | .convertMax _ _ _ => true
  | .convertFactor _ _ _ => true
  | .convertOut _ _ _ _ => true
  | _ => false

/-- The main context takes a start in `await_address`. -/
def MainPoint.taking : MainPoint → Bool
  | .startSeen => true
  | .startTaken => true
  | _ => false

/-- The main context waits for the end of a byte primitive. -/
def MainPoint.waiting : MainPoint → Bool
  | .awaitAddress => true
  | .receiveByte => true
  | .sendByte => true
  | _ => false

/-- The main context is between two primitives of an access. -/
def MainPoint.between (m : MainPoint) : Bool := !m.resting && !m.taking && !m.waiting

theorem changingOver_of_resting {m : MainPoint} (h : m.resting = true) : m.changingOver = false := by
  cases m <;> simp_all [MainPoint.resting, MainPoint.changingOver]

/-- `BUS_STATE` in which the main context runs an `RxByte` (R182, R184). -/
def RxUse.busState : RxUse → BusState
  | .address => .addressPhase
  | .command => .writeTransfer

/-- `BUS_STATE` in the access the main context is in, at a point between two primitives (R181). -/
def MainPoint.accessState : MainPoint → BusState
  | .rxEntry _ u => u.busState
  | .writeAccess => .writeTransfer
  | .execute _ => .writeTransfer
  | .endAccess => .writeTransfer
  | .readAccess => .readTransfer
  | .streamByte => .readTransfer
  | .composeByte _ => .readTransfer
  | .advance _ => .readTransfer
  | .txEntry _ _ => .readTransfer
  | _ => .idle

/-- How far a command may have come: it is under way in `Execute` only (R211). -/
def MainPoint.admits : MainPoint → Progress → Bool
  | .execute c, p => progressFits c p
  | _, p => decide (p = .fresh)

theorem coherent_resting {s : State} (h : s.main.resting = true) :
    accessCoherent s = true ↔ s.busState = .idle ∧ idleXferOk s = true ∧ s.progress = .fresh := by
  unfold accessCoherent
  split <;> simp_all [MainPoint.resting, idleCoherent, and_assoc]

theorem coherent_taking {s : State} (h : s.main.taking = true) :
    accessCoherent s = true ↔ s.busState = .idle ∧ takenXferOk s = true ∧ s.progress = .fresh := by
  unfold accessCoherent
  split <;> simp_all [MainPoint.taking, and_assoc]

theorem coherent_between {s : State} (h : s.main.between = true) :
    accessCoherent s = true ↔ s.busState = s.main.accessState ∧ s.xfer = .halted ∧ s.main.admits s.progress = true := by
  unfold accessCoherent
  split <;> simp_all [MainPoint.between, MainPoint.resting, MainPoint.taking, MainPoint.waiting, betweenPrimitives,
    MainPoint.accessState, RxUse.busState, MainPoint.admits, and_assoc]

theorem MainPoint.waiting_iff {m : MainPoint} : m.waiting = true ↔ m = .awaitAddress ∨ m = .receiveByte ∨ m = .sendByte := by
  cases m <;> simp [MainPoint.waiting]

/-- The points of the main context, by what its shifter may hold there. -/
theorem MainPoint.kinds (m : MainPoint) :
    m.resting = true ∨ m.taking = true ∨ m.between = true ∨ m = .awaitAddress ∨ m = .receiveByte ∨ m = .sendByte := by
  rw [← MainPoint.waiting_iff]
  cases hr : m.resting <;> cases ht : m.taking <;> cases hw : m.waiting <;> simp [MainPoint.between, hr, ht, hw]

/-! What the shifter of an idle block holds (R163, R168). -/

theorem idleXferOk_plain {s : State} (h : s.cfg.backend ≠ .controller) : idleXferOk s = true ↔ s.xfer = .halted := by
  unfold idleXferOk
  cases hb : s.cfg.backend <;> simp_all

theorem takenXferOk_plain {s : State} (h : s.cfg.backend ≠ .controller) : takenXferOk s = true ↔ s.xfer = .halted := by
  unfold takenXferOk
  cases hb : s.cfg.backend <;> simp_all

/-- With no start latched even a controller's shifter stands still. -/
theorem halted_of_idleXferOk {s : State} (h : idleXferOk s = true) (hs : s.startF = false) : s.xfer = .halted := by
  by_cases hb : s.cfg.backend = .controller
  · simp only [idleXferOk, hb] at h
    split at h <;> simp_all
  · exact (idleXferOk_plain hb).mp h

theorem takenXfer_cases {s : State} (h : takenXferOk s = true) :
    (s.cfg.backend ≠ .controller ∧ s.xfer = .halted) ∨
      (s.cfg.backend = .controller ∧
        ∃ b, s.xfer = .finished (.byte b) ∧ addressMatches s.cfg s.cfg.addrMask (addrField b) = true) := by
  by_cases hb : s.cfg.backend = .controller
  · simp only [takenXferOk, hb] at h
    split at h
    · next b hx => exact .inr ⟨hb, b, hx, h⟩
    · cases h
  · exact .inl ⟨hb, (takenXferOk_plain hb).mp h⟩

theorem inactive_of_taken {s : State} (h : takenXferOk s = true) : s.xfer.active = false := by
  rcases takenXfer_cases h with ⟨_, hx⟩ | ⟨_, _, hx, _⟩ <;> rw [hx] <;> rfl

/-! Which primitive may be in progress where. -/

/-- Who lets a receiver's byte come in: an idle controller's peripheral, `await_address` or `receive_byte` (R157, R163). -/
inductive Receives (s : State) : AckPolicy → Prop
  | listening : s.cfg.backend = .controller → s.main.resting = true → s.busState = .idle → s.startF = true →
      s.progress = .fresh → Receives s (.addressMatch s.cfg.addrMask)
  | address : s.main = .awaitAddress → s.busState = .addressPhase → s.progress = .fresh →
      Receives s (.addressMatch s.cfg.addrMask)
  | command : s.main = .receiveByte → s.busState = .writeTransfer → s.progress = .fresh → Receives s (.const true)

/-- `send_byte` waits for the end of its byte (R158). -/
structure Sends (s : State) : Prop where
  main : s.main = .sendByte
  busState : s.busState = .readTransfer
  progress : s.progress = .fresh

theorem coherent_rxData {s : State} {ack : AckPolicy} (hx : s.xfer = .rxData ack) :
    accessCoherent s = true ↔ Receives s ack := by
  constructor
  · intro h
    rcases s.main.kinds with hm | hm | hm | hm | hm | hm
    · obtain ⟨hi, hk, hp⟩ := (coherent_resting hm).mp h
      cases hb : s.cfg.backend <;> simp [idleXferOk, hx, hb] at hk
      obtain ⟨hs, rfl⟩ := hk
      exact .listening hb hm hi hs hp
    · obtain ⟨_, hk, _⟩ := (coherent_taking hm).mp h
      cases hb : s.cfg.backend <;> simp [takenXferOk, hx, hb] at hk
    · exact nomatch hx.symm.trans ((coherent_between hm).mp h).2.1
    · cases hp : s.progress <;> simp [accessCoherent, hm, hx, hp] at h
      obtain ⟨hb, rfl⟩ := h
      exact .address hm hb hp
    · simp [accessCoherent, hm, hx] at h
      obtain ⟨⟨hb, hp⟩, rfl⟩ := h
      exact .command hm hb hp
    · simp [accessCoherent, hm, hx] at h
  · rintro (⟨hc, hm, hb, hs, hp⟩ | ⟨hm, hb, hp⟩ | ⟨hm, hb, hp⟩)
    · exact (coherent_resting hm).mpr ⟨hb, by simp [idleXferOk, hc, hs, hx], hp⟩
    · simp [accessCoherent, hm, hb, hp, hx]
    · simp [accessCoherent, hm, hb, hp, hx]

theorem coherent_rxAck {s : State} (hx : s.xfer = .rxAck) :
    accessCoherent s = true ↔ ∃ ack, Receives s ack ∧ (ack = .const true ∨ s.sdaPull = ack.eval s.cfg s.sr) := by
  constructor
  · intro h
    rcases s.main.kinds with hm | hm | hm | hm | hm | hm
    · obtain ⟨hi, hk, hp⟩ := (coherent_resting hm).mp h
      cases hb : s.cfg.backend <;> simp [idleXferOk, hx, hb] at hk
      exact ⟨_, .listening hb hm hi hk.1 hp, .inr hk.2⟩
    · obtain ⟨_, hk, _⟩ := (coherent_taking hm).mp h
      cases hb : s.cfg.backend <;> simp [takenXferOk, hx, hb] at hk
    · exact nomatch hx.symm.trans ((coherent_between hm).mp h).2.1
    · cases hp : s.progress <;> simp [accessCoherent, hm, hx, hp] at h
      exact ⟨_, .address hm h.1 hp, .inr h.2⟩
    · simp [accessCoherent, hm, hx] at h
      exact ⟨_, .command hm h.1 h.2, .inl rfl⟩
    · simp [accessCoherent, hm, hx] at h
  · rintro ⟨_, ⟨hc, hm, hb, hs, hp⟩ | ⟨hm, hb, hp⟩ | ⟨hm, hb, hp⟩, ha⟩
    · have ha : s.sdaPull = addressMatches s.cfg s.cfg.addrMask (addrField s.sr) := ha.resolve_left nofun
      exact (coherent_resting hm).mpr ⟨hb, by simp [idleXferOk, hc, hs, hx, ha], hp⟩
    · have ha : s.sdaPull = addressMatches s.cfg s.cfg.addrMask (addrField s.sr) := ha.resolve_left nofun
      simp [accessCoherent, hm, hb, hp, hx, ha]
    · simp [accessCoherent, hm, hb, hp, hx]

/-- `TxByte` is in progress. -/
def Xfer.sending : Xfer → Bool
  | .txData => true
  | .txAck => true
  | .txSampled _ => true
  | _ => false

theorem active_of_sending {x : Xfer} (h : x.sending = true) : x.active = true := by
  cases x <;> simp_all [Xfer.sending, Xfer.active]

/-- An idle block sends nothing. -/
theorem not_sending_of_idleXferOk {s : State} (h : idleXferOk s = true) : s.xfer.sending = false := by
  by_cases hb : s.cfg.backend = .controller
  · simp only [idleXferOk, hb] at h
    split at h <;> simp_all [Xfer.sending]
  · rw [(idleXferOk_plain hb).mp h]
    rfl

theorem coherent_sending {s : State} (hx : s.xfer.sending = true) : accessCoherent s = true ↔ Sends s := by
  constructor
  · intro h
    rcases s.main.kinds with hm | hm | hm | hm | hm | hm
    · obtain ⟨_, hk, _⟩ := (coherent_resting hm).mp h
      exact nomatch hx.symm.trans (not_sending_of_idleXferOk hk)
    · obtain ⟨_, hk, _⟩ := (coherent_taking hm).mp h
      exact nomatch (active_of_sending hx).symm.trans (inactive_of_taken hk)
    · obtain ⟨_, hh, _⟩ := (coherent_between hm).mp h
      rw [hh] at hx
      cases hx
    · cases hp : s.progress <;> cases hx' : s.xfer <;> simp_all [accessCoherent, Xfer.sending]
    · cases hx' : s.xfer <;> simp_all [accessCoherent, Xfer.sending]
    · simp only [accessCoherent, hm, Bool.and_eq_true, decide_eq_true_eq] at h
      obtain ⟨⟨hb, hp⟩, _⟩ := h
      exact ⟨hm, hb, hp⟩
  · rintro ⟨hm, hb, hp⟩
    cases hx' : s.xfer <;> simp_all [accessCoherent, Xfer.sending]

/-! The bus invariant, the clause on idle lines following from the others. -/

theorem stretchJustified_active {s : State} (hx : s.xfer.active = true) : stretchJustified s = false := by
  unfold stretchJustified
  cases h : s.xfer <;> simp_all [Xfer.active]

theorem autonomous_iff {s : State} :
    s.autonomous = true ↔ s.cfg.backend = .controller ∧ s.busState = .idle ∧ s.main.changingOver = false := by
  simp [State.autonomous, and_assoc]

theorem resting_of_idle {s : State} (hc : accessCoherent s = true) (hb : s.busState = .idle) (ho : s.main.changingOver = false) :
    s.main.resting = true := by
  unfold accessCoherent at hc
  split at hc <;> simp_all [MainPoint.resting, MainPoint.changingOver, betweenPrimitives]

theorem idle_halted {s : State} (hc : accessCoherent s = true) (hb : s.busState = .idle) (ho : s.main.changingOver = false)
    (hs : s.startF = false) : s.xfer = .halted := by
  have hr := resting_of_idle hc hb ho
  exact halted_of_idleXferOk ((coherent_resting hr).mp hc).2.1 hs

theorem BusInv.of {s : State} (coherent : accessCoherent s = true)
    (sda : s.sdaPull = true → s.xfer.active = true ∨ firstBitSet s.main = true)
    (ackSlot : inAckSlot s.xfer = true → s.sdaPull = false) (scl : s.sclPull = true → stretchJustified s = true)
    (bits : s.bitcnt.toNat ≤ 8) : BusInv s where
  coherent := coherent
  sdaOnlyInPrimitive := sda
  ackSlotReleased := ackSlot
  sclOnlyStretching := scl
  idleReleases hb ho hs := by
    have hx := idle_halted coherent hb ho hs
    have hm : firstBitSet s.main = false := by
      have hr := resting_of_idle coherent hb ho
      cases hm : s.main <;> simp_all [MainPoint.resting, firstBitSet]
    constructor
    · simpa [hx, hm, Xfer.active] using sda
    · simpa [stretchJustified, hx, hb, ho, hs] using scl
  bitCount := bits

/-- In a primitive the block lets the clock go. -/
theorem BusInv.active {s : State} (h : BusInv s) (hx : s.xfer.active = true) : s.sclPull = false := by
  by_contra hn
  have := h.sclOnlyStretching (by simpa using hn)
  simp [stretchJustified_active hx] at this

theorem BusInv.ofActive {s : State} (hx : s.xfer.active = true) (coherent : accessCoherent s = true)
    (ackSlot : inAckSlot s.xfer = true → s.sdaPull = false) (scl : s.sclPull = false) (bits : s.bitcnt.toNat ≤ 8) : BusInv s :=
  .of coherent (fun _ => .inl hx) ackSlot (fun h => by simp [scl] at h) bits

/-- With no primitive in progress the block pulls the data line only for a first bit. -/
theorem BusInv.sdaReleased {s : State} (h : BusInv s) (hx : s.xfer.active = false) (hm : firstBitSet s.main = false) :
    s.sdaPull = false := by
  simpa [hx, hm] using h.sdaOnlyInPrimitive

end Sys2Proof.Machine
end

section
/-! PROOFS. Every edge of the lines keeps the bus invariant (R152, R153, R157 to R160). -/

namespace Sys2Proof.Machine

/-- What the shifter and the lines do is nothing to who receives. -/
theorem Receives.shifted {s : State} {ack : AckPolicy} (h : Receives s ack) (p q : Bool) (b : Byte) (n : BitVec 4) (x : Xfer) :
    Receives { s with sdaPull := p, sclPull := q, sr := b, bitcnt := n, xfer := x } ack := by
  cases h with
  | listening hc hm hb hs hp => exact .listening hc hm hb hs hp
  | address hm hb hp => exact .address hm hb hp
  | command hm hb hp => exact .command hm hb hp

/-- At rest only a controller listens on its own. -/
theorem plain_of_resting {s : State} (ha : s.autonomous = false) (hm : s.main.resting = true) (hi : s.busState = .idle) :
    s.cfg.backend ≠ .controller := fun hb =>
  Bool.false_ne_true (ha.symm.trans (autonomous_iff.mpr ⟨hb, hi, changingOver_of_resting hm⟩))

/-- A start latched by a block that is no idle controller fits where the main context stands. -/
theorem coherent_startSet {s : State} (h : accessCoherent s = true) (ha : s.autonomous = false) :
    accessCoherent { s with startF := true } = true := by
  rcases s.main.kinds with hm | hm | hm | hm | hm | hm
  · obtain ⟨hi, hk, hp⟩ := (coherent_resting hm).mp h
    have hb := plain_of_resting ha hm hi
    exact (coherent_resting (by exact hm)).mpr ⟨hi, (idleXferOk_plain (by exact hb)).mpr ((idleXferOk_plain hb).mp hk), hp⟩
  · exact (coherent_taking (by exact hm)).mpr ((coherent_taking hm).mp h)
  · exact (coherent_between (by exact hm)).mpr ((coherent_between hm).mp h)
  · simp only [accessCoherent, hm] at h ⊢
    cases hp : s.progress <;> cases hx : s.xfer with
    | finished r => cases r <;> simp_all
    | _ => simp_all
  · simpa [accessCoherent, hm] using h
  · simpa [accessCoherent, hm] using h

theorem stretchJustified_startSet {s : State} (h : stretchJustified s = true) :
    stretchJustified { s with startF := true } = true := by
  unfold stretchJustified at h ⊢
  cases hx : s.xfer with
  | finished r => cases r <;> simp_all
  | _ => simp_all

theorem BusInv.startSet {s : State} (h : BusInv s) (ha : s.autonomous = false) : BusInv { s with startF := true } :=
  .of (coherent_startSet h.coherent ha) h.sdaOnlyInPrimitive h.ackSlotReleased
    (fun hs => stretchJustified_startSet (h.sclOnlyStretching hs)) h.bitCount

/-- A primitive of the main context can end `Aborted` at any time (R159). -/
theorem coherent_aborted {s : State} (h : accessCoherent s = true) (hx : s.xfer.active = true) (ha : s.autonomous = false) :
    accessCoherent { s with xfer := .finished .aborted, sdaPull := false } = true := by
  rcases s.main.kinds with hm | hm | hm | hm | hm | hm
  · obtain ⟨hi, hk, _⟩ := (coherent_resting hm).mp h
    simp [(idleXferOk_plain (plain_of_resting ha hm hi)).mp hk, Xfer.active] at hx
  · obtain ⟨_, hk, _⟩ := (coherent_taking hm).mp h
    exact nomatch hx.symm.trans (inactive_of_taken hk)
  · simp [((coherent_between hm).mp h).2.1, Xfer.active] at hx
  · cases hp : s.progress <;> cases hx' : s.xfer <;> simp_all [accessCoherent, Xfer.active]
  · simp_all [accessCoherent]
  · simp_all [accessCoherent]

theorem BusInv.abortXfer {s : State} (h : BusInv s) (ha : s.autonomous = false) : BusInv (abortXfer s) := by
  unfold Machine.abortXfer
  split
  · next hx =>
    refine .of (coherent_aborted h.coherent hx ha) nofun (fun _ => rfl) ?_ h.bitCount
    simp [h.active hx]
  · exact h

theorem BusInv.abortIfSensed {s : State} (h : BusInv s) : BusInv (abortIfSensed s) := by
  unfold Machine.abortIfSensed
  split
  · next ha => exact h.abortXfer (by simp_all)
  · exact h

/-- An idle controller rests between operations (R168). -/
theorem BusInv.listens {s : State} (h : BusInv s) (ha : s.autonomous = true) :
    s.cfg.backend = .controller ∧ s.main.resting = true ∧ s.busState = .idle ∧ s.progress = .fresh := by
  obtain ⟨hb, hi, ho⟩ := autonomous_iff.mp ha
  have hm := resting_of_idle h.coherent hi ho
  exact ⟨hb, hm, hi, ((coherent_resting hm).mp h.coherent).2.2⟩

/-- The shifter set for an address byte, a start latched (R157, R163). -/
theorem loadAddress_bus {s : State} (hb : s.cfg.backend = .controller) (hm : s.main.resting = true) (hi : s.busState = .idle)
    (hp : s.progress = .fresh) (hs : s.startF = true) : BusInv (loadAddress s) :=
  .ofActive rfl ((coherent_rxData rfl).mpr (.listening hb hm hi hs hp)) nofun rfl (by simp)

theorem BusInv.senseStart {s : State} (h : BusInv s) : BusInv (senseStart s) := by
  unfold Machine.senseStart
  split
  · next ha =>
    obtain ⟨hb, hm, hi, hp⟩ := h.listens ha
    exact loadAddress_bus hb hm hi hp rfl
  · next ha =>
    have ha := Bool.eq_false_of_not_eq_true ha
    exact (h.startSet ha).abortXfer ha

theorem BusInv.senseStop {s : State} (h : BusInv s) : BusInv (senseStop s) := by
  unfold Machine.senseStop
  split
  · next ha =>
    obtain ⟨hb, hm, hi, hp⟩ := h.listens ha
    split
    · next hx =>
      refine .of ((coherent_resting (by exact hm)).mpr ⟨hi, ?_, hp⟩) nofun nofun ?_ h.bitCount
      · simp [idleXferOk, hb]
      · simp [h.active hx]
    · exact h.same rfl
  · next ha => exact BusInv.abortXfer (h.same rfl) (Bool.eq_false_of_not_eq_true ha)

/-- A bit sampled, counted down. -/
theorem bitCount_sub_one {n : BitVec 4} (h : n.toNat ≤ 8) (h0 : n ≠ 0) : (n - 1).toNat ≤ 8 := by bv_omega

theorem BusInv.clockRise {s : State} (h : BusInv s) : BusInv (clockRise s) := by
  unfold Machine.clockRise
  cases hx : s.xfer with
  | rxData ack =>
    dsimp only
    split
    · exact h
    · next h0 =>
      have hr := (coherent_rxData hx).mp h.coherent
      exact BusInv.abortIfSensed (.ofActive rfl ((coherent_rxData rfl).mpr (hr.shifted _ _ _ _ _)) nofun
        (h.active (by rw [hx]; rfl)) (bitCount_sub_one h.bitCount h0))
  | rxAck =>
    dsimp only
    split
    · exact h
    · next h0 =>
      obtain ⟨ack, hr, he⟩ := (coherent_rxAck hx).mp h.coherent
      exact .ofActive rfl ((coherent_rxAck rfl).mpr ⟨ack, hr.shifted _ _ _ _ _, he⟩) nofun
        (h.active (by rw [hx]; rfl)) (bitCount_sub_one h.bitCount h0)
  | txAck =>
    have hs := (coherent_sending (by rw [hx]; rfl)).mp h.coherent
    exact .ofActive rfl ((coherent_sending rfl).mpr ⟨hs.main, hs.busState, hs.progress⟩)
      (fun _ => h.ackSlotReleased (by rw [hx]; rfl)) (h.active (by rw [hx]; rfl)) (by simp)
  | txData => exact h
  | txSampled _ => exact h
  | halted => exact h
  | finished _ => exact h

/-- The byte and its acknowledgement complete: it fits, acknowledged by the one it is for (R157, R168). -/
theorem coherent_byteComplete {s : State} {ack : AckPolicy} (hr : Receives s ack)
    (he : ack = .const true ∨ s.sdaPull = ack.eval s.cfg s.sr) (ha : s.autonomous = true → s.sdaPull = true) :
    accessCoherent { s with sdaPull := false, sclPull := s.sdaPull, xfer := .finished (.byte s.sr) } = true := by
  cases hr with
  | listening hb hm hi hs hp =>
    have hm' : s.sdaPull = addressMatches s.cfg s.cfg.addrMask (addrField s.sr) := he.resolve_left nofun
    rw [ha (autonomous_iff.mpr ⟨hb, hi, changingOver_of_resting hm⟩)] at hm'
    exact (coherent_resting (by exact hm)).mpr ⟨hi, by simp [idleXferOk, hb, hs, ← hm'], hp⟩
  | address hm hb hp =>
    have hm' : s.sdaPull = addressMatches s.cfg s.cfg.addrMask (addrField s.sr) := he.resolve_left nofun
    cases hs : s.sdaPull <;> simp [accessCoherent, hm, hb, hp, hs, ← hm']
  | command hm hb hp => simp [accessCoherent, hm, hb, hp]

/-- The clock is held only where a start waits or an access goes on, and there it may be (R160). -/
theorem coherent_stretched {s : State} (h : accessCoherent s = true) (hd : stretchDue s = true) :
    accessCoherent { s with sclPull := true } = true := by
  rcases s.main.kinds with hm | hm | hm | hm | hm | hm
  · exact (coherent_resting (by exact hm)).mpr ((coherent_resting hm).mp h)
  · exact (coherent_taking (by exact hm)).mpr ((coherent_taking hm).mp h)
  · exact (coherent_between (by exact hm)).mpr ((coherent_between hm).mp h)
  · simp only [accessCoherent, hm] at h ⊢
    unfold stretchDue at hd
    cases hp : s.progress <;> cases hx : s.xfer with
    | finished r => cases r <;> simp_all
    | _ => simp_all
  · simpa [accessCoherent, hm] using h
  · simpa [accessCoherent, hm] using h

theorem stretchJustified_of_due {s : State} (h : stretchDue s = true) : stretchJustified s = true := by
  unfold stretchDue at h
  unfold stretchJustified
  cases hx : s.xfer with
  | finished r => cases r <;> simp_all
  | _ => simp_all

theorem BusInv.stretch {s : State} (h : BusInv s) (hd : stretchDue s = true) : BusInv { s with sclPull := true } :=
  .of (coherent_stretched h.coherent hd) h.sdaOnlyInPrimitive h.ackSlotReleased (fun _ => stretchJustified_of_due hd) h.bitCount

theorem BusInv.clockFall {s : State} (h : BusInv s) : BusInv (clockFall s) := by
  unfold Machine.clockFall
  cases hx : s.xfer with
  | rxData ack =>
    dsimp only
    split
    · have hr := (coherent_rxData hx).mp h.coherent
      exact .ofActive rfl ((coherent_rxAck rfl).mpr ⟨ack, hr.shifted _ _ _ _ _, .inr rfl⟩) nofun
        (h.active (by rw [hx]; rfl)) (by simp)
    · exact h
  | rxAck =>
    obtain ⟨ack, hr, he⟩ := (coherent_rxAck hx).mp h.coherent
    dsimp only
    split
    · split
      · next hd =>
        obtain ⟨ha, hs⟩ : s.autonomous = true ∧ s.sdaPull = false := by simpa using hd
        obtain ⟨hb, hm, hi, hp⟩ := h.listens ha
        refine .of ((coherent_resting (by exact hm)).mpr ⟨hi, by simp [idleXferOk, hb], hp⟩) (by simp [hs]) nofun ?_ h.bitCount
        simp [h.active (by rw [hx]; rfl)]
      · next hd =>
        exact .of (coherent_byteComplete hr he (by simpa using hd)) nofun nofun (fun _ => rfl) h.bitCount
    · exact h
  | txData =>
    have hs := (coherent_sending (by rw [hx]; rfl)).mp h.coherent
    have hc := h.active (by rw [hx]; rfl)
    dsimp only
    split
    · refine BusInv.abortIfSensed (.ofActive rfl ((coherent_sending rfl).mpr ⟨hs.main, hs.busState, hs.progress⟩) nofun hc
        (bitCount_sub_one h.bitCount ?_))
      bv_omega
    · exact .ofActive rfl ((coherent_sending rfl).mpr ⟨hs.main, hs.busState, hs.progress⟩) (fun _ => rfl) hc (by simp)
  | txSampled a =>
    have hs := (coherent_sending (by rw [hx]; rfl)).mp h.coherent
    have hd := h.ackSlotReleased (by rw [hx]; rfl)
    refine .of ?_ (by simp [hd]) (fun _ => hd) ?_ h.bitCount
    · cases a <;> simp [accessCoherent, hs.main, hs.busState, hs.progress]
    · cases a <;> simp [stretchJustified]
  | txAck => exact h
  | halted =>
    dsimp only
    split
    · next hd => exact hx ▸ h.stretch hd
    · exact h
  | finished r =>
    dsimp only
    split
    · next hd => exact hx ▸ h.stretch hd
    · exact h

theorem BusInv.lineEdges {s : State} (h : BusInv s) (a b : Bool) : BusInv (lineEdges a b s) := by
  unfold Machine.lineEdges
  split
  · split
    · exact h.senseStart
    · split
      · exact h.senseStop
      · exact h
  · split
    · exact h.clockRise
    · split
      · exact h.clockFall
      · exact h

theorem BusInv.setPeerSda {s : State} (h : BusInv s) (p : Bool) : BusInv (setPeerSda p s) :=
  BusInv.lineEdges (s := { s with peerSda := p }) (h.same rfl) _ _

theorem BusInv.setPeerScl {s : State} (h : BusInv s) (p : Bool) : BusInv (setPeerScl p s) :=
  BusInv.lineEdges (s := { s with peerScl := p }) (h.same rfl) _ _

theorem BusInv.peerPulse {s : State} (h : BusInv s) (bit : Bool) : BusInv (peerPulse bit s).2 :=
  (((h.setPeerScl _).setPeerSda _).setPeerScl _).setPeerScl _

theorem BusInv.peerStart {s : State} (h : BusInv s) : BusInv (peerStart s) := by
  unfold Machine.peerStart
  split
  · exact (h.setPeerSda _).setPeerScl _
  · exact ((((h.setPeerScl _).setPeerSda _).setPeerScl _).setPeerSda _).setPeerScl _

theorem BusInv.peerStop {s : State} (h : BusInv s) : BusInv (peerStop s) :=
  (((h.setPeerScl _).setPeerSda _).setPeerScl _).setPeerSda _

theorem BusInv.peerWrite {s : State} (h : BusInv s) (bits : List Bool) : BusInv (peerWrite bits s).1 := by
  induction bits generalizing s with
  | nil =>
    unfold Machine.peerWrite
    split
    · exact h
    · exact (h.peerPulse true).same rfl
  | cons b bs ih =>
    unfold Machine.peerWrite
    split
    · exact h
    · exact ih (h.peerPulse b)

theorem BusInv.peerRead {s : State} (h : BusInv s) (n : Nat) (acc : Byte) (a : Bool) : BusInv (peerRead n acc a s).1 := by
  induction n generalizing s acc with
  | zero =>
    unfold Machine.peerRead
    split
    · exact h
    · exact ((h.peerPulse _).setPeerSda _).same rfl
  | succ n ih =>
    unfold Machine.peerRead
    split
    · exact h
    · exact ih (h.peerPulse true) _

end Sys2Proof.Machine
end

section
/-! PROOFS. What a step that leaves CAP and DEB alone has to show, and the points between two primitives. -/

namespace Sys2Proof.Machine

/-- `t` with everything CAP's and DEB's invariants read, the configuration and what is asked for taken from `s`. -/
def withCapture (s t : State) : State :=
  { t with
    cfg := s.cfg, cnt := s.cnt, oca := s.oca, ocb := s.ocb, t0 := s.t0, icr := s.icr, capf := s.capf, phase := s.phase,
    next := s.next, drive := s.drive, disch := s.disch, dbc := s.dbc, ie := s.ie, asked := s.asked }

/-- `t` differs from `s` in nothing CAP's and DEB's invariants read, nor in the configuration or what is asked for. -/
def CaptureSame (s t : State) : Prop := withCapture s t = t

/-- What a step leaves: the invariant, in the same configuration and with the same asked for. -/
structure Onward (s t : State) : Prop where
  inv : Inv t
  cfg : t.cfg = s.cfg
  asked : t.asked = s.asked

theorem Onward.trans {s t u : State} (h : Onward s t) (g : Onward t u) : Onward s u :=
  ⟨g.inv, g.cfg.trans h.cfg, g.asked.trans h.asked⟩

/-- A step from the invariant that leaves CAP and DEB alone. -/
theorem Onward.of {s t : State} (h : Inv s) (f : CaptureSame s t) (bus : BusInv t) (stream : StreamInv t)
    (word : readingWord t = false → t.lowByte = none) (memory : Memory.wf t.cfg t.nv = true) : Onward s t := by
  have inv : Inv (withCapture s t) → Onward s t := fun h => by
    rw [← f]
    exact ⟨h, rfl, rfl⟩
  apply inv
  rw [← f] at memory
  exact ⟨⟨h.cap.1, h.cap.2, h.cap.3, h.cap.4, h.cap.5, h.cap.6, h.cap.7⟩, h.debounce, f.symm ▸ bus, stream, word, memory,
    h.enabled⟩

/-- Then the lines move. -/
theorem Onward.line {s t u : State} (h : Inv s) (f : CaptureSame s t) (stream : StreamInv t)
    (word : readingWord t = false → t.lowByte = none) (memory : Memory.wf t.cfg t.nv = true) (g : LineFrame t u)
    (bus : BusInv u) : Onward s u := by
  have fu : CaptureSame s u := by
    unfold CaptureSame
    rw [← g, ← f]
    rfl
  refine .of h fu bus ?_ ?_ ?_
  · rw [← g]; exact stream
  · rw [← g]; exact word
  · rw [← g]; exact memory

/-! ### Between two primitives -/

theorem changingOver_of_accessState {m : MainPoint} (hm : m.between = true) (hi : m.accessState = .idle) :
    m.changingOver = true := by
  cases m with
  | rxEntry e u => cases u <;> cases hi
  | _ => simp_all [MainPoint.between, MainPoint.resting, MainPoint.taking, MainPoint.waiting, MainPoint.accessState,
      MainPoint.changingOver]

/-- Between two primitives the clock may be held, and the data line only for the first bit that is set. -/
theorem BusInv.ofBetween {s : State} (hm : s.main.between = true) (hb : s.busState = s.main.accessState) (hx : s.xfer = .halted)
    (hp : s.main.admits s.progress = true) (sda : s.sdaPull = true → firstBitSet s.main = true) (bits : s.bitcnt.toNat ≤ 8) :
    BusInv s := by
  refine .of ((coherent_between hm).mpr ⟨hb, hx, hp⟩) (fun h => .inr (sda h)) (by simp [hx, inAckSlot]) (fun _ => ?_) bits
  by_cases hi : s.busState = .idle
  · simp [stretchJustified, hx, changingOver_of_accessState hm (hb ▸ hi)]
  · simp [stretchJustified, hx, hi]

/-- With no primitive in progress the edges of the lines are sensed, or hold the clock. -/
theorem lineEdges_halted {s : State} (a b : Bool) (hx : s.xfer = .halted) (ha : s.autonomous = false) :
    ∃ f g q, lineEdges a b s = { s with startF := f, stopF := g, sclPull := q } := by
  have keep : ∃ f g q, s = { s with startF := f, stopF := g, sclPull := q } := ⟨_, _, _, rfl⟩
  unfold lineEdges
  split
  · split
    · exact ⟨true, s.stopF, s.sclPull, by simp [senseStart, ha, abortXfer, hx, Xfer.active]⟩
    · split
      · exact ⟨s.startF, true, s.sclPull, by simp [senseStop, ha, abortXfer, hx, Xfer.active]⟩
      · exact keep
  · split
    · simpa [clockRise, hx] using keep
    · split
      · simp only [clockFall, hx]
        split
        · exact ⟨s.startF, s.stopF, true, rfl⟩
        · simpa [hx] using keep
      · exact keep

theorem Inv.between {s : State} {m : MainPoint} (h : Inv s) (hm : s.main = m) (hk : m.between = true) :
    s.busState = m.accessState ∧ s.xfer = .halted ∧ m.admits s.progress = true := by
  subst hm
  exact (coherent_between hk).mp h.bus.coherent

theorem autonomous_between {s : State} {m : MainPoint} (hm : s.main = m) (hk : m.between = true) (hb : s.busState = m.accessState) :
    s.autonomous = false := by
  by_contra hn
  obtain ⟨_, hi, ho⟩ := autonomous_iff.mp (Bool.eq_true_of_not_eq_false hn)
  rw [hm, changingOver_of_accessState hk (hb ▸ hi)] at ho
  cases ho

theorem Inv.sdaBetween {s : State} {m : MainPoint} (h : Inv s) (hm : s.main = m) (hk : m.between = true)
    (hf : firstBitSet m = false) : s.sdaPull = false :=
  h.bus.sdaReleased (by rw [(h.between hm hk).2.1]; rfl) (hm ▸ hf)

theorem setData_halted {s : State} (p : Bool) (hx : s.xfer = .halted) (ha : s.autonomous = false) :
    ∃ f g q, setData p s = { s with sdaPull := p, startF := f, stopF := g, sclPull := q } :=
  lineEdges_halted (s := { s with sdaPull := p }) _ _ hx ha

/-- The release of the clock makes no edge but a rise. -/
theorem releaseClock_cases (x : Xfer) (s : State) :
    releaseClock x s = { s with sclPull := false, xfer := x } ∨
      releaseClock x s = clockRise { s with sclPull := false, xfer := x } := by
  unfold releaseClock drivingLines lineEdges
  cases hq : s.sclPull <;> cases hp : s.peerScl <;> cases hd : s.sda <;>
    simp_all [State.scl, State.sda]

end Sys2Proof.Machine
end

section
/-! PROOFS. `CONVERT`, `await_address` and the entries of the byte primitives go on inside the invariant
(R157, R158, R182, R266). -/

namespace Sys2Proof.Machine

/-! ### `CONVERT` -/

theorem BusInv.rest {s : State} {m : MainPoint} (h : BusInv s) (hm : s.main.resting = true) (ht : m.resting = true) :
    BusInv { s with main := m } := by
  have hf : firstBitSet s.main = false := by
    cases hs : s.main <;> simp_all [MainPoint.resting, firstBitSet]
  refine .of ((coherent_resting ht).mpr ((coherent_resting hm).mp h.coherent)) (fun hd => ?_) h.ackSlotReleased
    (fun hc => ?_) h.bitCount
  · exact .inl ((h.sdaOnlyInPrimitive hd).resolve_right (by simp [hf]))
  · simpa [stretchJustified, changingOver_of_resting hm, changingOver_of_resting ht] using h.sclOnlyStretching hc

theorem streaming_of_resting {m : MainPoint} (h : m.resting = true) : streaming m = false := by
  cases m <;> simp_all [MainPoint.resting, streaming]

/-- A step from rest to rest: nothing of the bus moves. -/
theorem Onward.rest {s t : State} (h : Inv s) (hm : s.main.resting = true) (ht : t.main.resting = true) (f : CaptureSame s t)
    (fb : BusSame { s with main := t.main } t) (word : readingWord t = false → t.lowByte = none)
    (memory : Memory.wf t.cfg t.nv = true) : Onward s t :=
  .of h f ((h.bus.rest hm ht).same fb) (fun hs => by simp [streaming_of_resting ht] at hs) word memory

theorem Inv.lowNone {s : State} {m : MainPoint} (h : Inv s) (hm : s.main = m) (hr : readingWord { s with main := m } = false) :
    s.lowByte = none := h.wordRead (by subst hm; exact hr)

theorem convertTake_onward {s : State} (h : Inv s) (hm : s.main = .loop) : Onward s (convertTake s) := by
  have hl : s.lowByte = none := h.lowNone hm rfl
  have hr : s.main.resting = true := by rw [hm]; rfl
  unfold convertTake takeSample critical
  cases s.updated with
  | false => exact .rest h hr hr rfl rfl (fun _ => hl) h.memory
  | true => exact .rest h hr rfl rfl rfl (fun _ => hl) h.memory

theorem convertFlag_onward {s : State} {ch : Chan} {r : Word} (h : Inv s) (hm : s.main = .convertFlag ch r) :
    Onward s (convertFlag ch r s) := by
  have hl : s.lowByte = none := h.lowNone hm rfl
  have hr : s.main.resting = true := by rw [hm]; rfl
  unfold convertFlag
  split
  · exact .rest h hr rfl rfl rfl (fun _ => hl) h.memory
  · exact .rest h hr rfl rfl rfl (fun _ => hl) h.memory

/-- A step that reads a word of the store waits, takes its low byte, or has the word (R64). -/
theorem nvRead16_cases (w : Fin 12) (s : State) :
    (∃ l, nvRead16 w s = (none, { s with lowByte := l })) ∨ ∃ v, nvRead16 w s = (some v, { s with lowByte := none }) := by
  by_cases hb : s.nvBusy = true
  · exact .inl ⟨s.lowByte, nvRead16_waits hb⟩
  · have hb := Bool.eq_false_of_not_eq_true hb
    rcases s.lowByte.eq_none_or_eq_some with hl | ⟨lo, hl⟩
    · exact .inl ⟨_, nvRead16_low hb hl⟩
    · exact .inr ⟨_, nvRead16_high hb hl⟩

/-- `CONVERT` reads a byte of a stored word, or waits for it. -/
theorem Onward.readsByte {s : State} (h : Inv s) (hr : s.main.resting = true) (hw : readingWord s = true) (l : Option Byte) :
    Onward s { s with lowByte := l } :=
  .rest h hr hr rfl rfl (fun hn => nomatch hw.symm.trans hn) h.memory

/-- `CONVERT` has a stored word. -/
theorem Onward.readsWord {s : State} {m : MainPoint} (h : Inv s) (hr : s.main.resting = true) (hm : m.resting = true) :
    Onward s { s with lowByte := none, main := m } :=
  .rest h hr hm rfl rfl (fun _ => rfl) h.memory

theorem convertMin_onward {s : State} {ch : Chan} {r : Word} (h : Inv s) (hm : s.main = .convertMin ch r) :
    Onward s (convertMin ch r s) := by
  unfold convertMin
  rcases nvRead16_cases (trimWord ch .min) s with ⟨l, e⟩ | ⟨v, e⟩ <;> rw [e]
  · exact .readsByte h (by rw [hm]; rfl) (by simp [readingWord, hm]) l
  · exact .readsWord h (by rw [hm]; rfl) rfl

theorem convertMax_onward {s : State} {ch : Chan} {r mn : Word} (h : Inv s) (hm : s.main = .convertMax ch r mn) :
    Onward s (convertMax ch r mn s) := by
  unfold convertMax
  rcases nvRead16_cases (trimWord ch .max) s with ⟨l, e⟩ | ⟨v, e⟩ <;> rw [e]
  · exact .readsByte h (by rw [hm]; rfl) (by simp [readingWord, hm]) l
  · exact .readsWord h (by rw [hm]; rfl) rfl

theorem convertFactor_onward {s : State} {ch : Chan} {r mn : Word} (h : Inv s) (hm : s.main = .convertFactor ch r mn) :
    Onward s (convertFactor ch r mn s) := by
  unfold convertFactor
  rcases nvRead16_cases (trimWord ch .factor) s with ⟨l, e⟩ | ⟨v, e⟩ <;> rw [e]
  · exact .readsByte h (by rw [hm]; rfl) (by simp [readingWord, hm]) l
  · exact .readsWord h (by rw [hm]; rfl) rfl

theorem convertOut_onward {s : State} {ch : Chan} {r mn f : Word} (h : Inv s) (hm : s.main = .convertOut ch r mn f) :
    Onward s (convertOut ch r mn f s) := by
  have hl : s.lowByte = none := h.lowNone hm rfl
  have hr : s.main.resting = true := by rw [hm]; rfl
  unfold convertOut convertByte
  split
  · exact .rest h hr rfl rfl rfl (fun _ => hl) h.memory
  · exact .rest h hr rfl rfl rfl (fun _ => hl) h.memory

/-! ### `await_address` -/

theorem listen_bus {s : State} (hb : s.busState = .idle) (hm : s.main.resting = true) (hx : s.xfer = .halted)
    (hp : s.progress = .fresh) (hd : s.sdaPull = false) (hs : s.sclPull = true → s.startF = true) (bits : s.bitcnt.toNat ≤ 8) :
    BusInv (listen s) := by
  unfold listen
  split
  · next ha =>
    obtain ⟨⟨ha, hf⟩, _⟩ : (s.autonomous = true ∧ s.startF = true) ∧ s.xfer = .halted := by simpa using ha
    exact (loadAddress_bus (autonomous_iff.mp ha).1 hm hb hp hf).lineEdges _ _
  · next ha =>
    refine .of ((coherent_resting hm).mpr ⟨hb, ?_, hp⟩) (by simp [hd]) (by simp [hd]) (fun hc => ?_) bits
    · by_cases hk : s.cfg.backend = .controller
      · simpa [idleXferOk, hk, hx, autonomous_iff.mpr ⟨hk, hb, changingOver_of_resting hm⟩] using ha
      · exact (idleXferOk_plain hk).mpr hx
    · simp [stretchJustified, hx, hs hc]

/-- The access or the address byte is over: back to the main loop. -/
theorem Onward.toLoop {s t : State} (h : Inv s) (hl : s.lowByte = none) (f : CaptureSame s t) (hb : t.busState = .idle)
    (hm : t.main = .loop) (hx : t.xfer = .halted) (hp : t.progress = .fresh) (hd : t.sdaPull = false)
    (hs : t.sclPull = true → t.startF = true) (bits : t.bitcnt.toNat ≤ 8) (low : t.lowByte = s.lowByte)
    (memory : Memory.wf t.cfg t.nv = true) : Onward s (listen t) :=
  .line h f (by simp [StreamInv, hm, streaming]) (fun _ => low.trans hl) memory (listen_frame t)
    (listen_bus hb (by rw [hm]; rfl) hx hp hd hs bits)

/-- A primitive ended without success leaves the access (R190). -/
theorem leaveAccess_onward {s : State} {r : Status} (h : Inv s) (hm : s.main.waiting = true) (hx : s.xfer = .finished r)
    (hr : r = .aborted ∨ r = .nacked) (hp : s.progress = .fresh) : Onward s (leaveAccess s) := by
  have hl : s.lowByte = none := h.wordRead (by
    rcases MainPoint.waiting_iff.mp hm with hm | hm | hm <;> simp [readingWord, hm])
  have hd : s.sdaPull = false := h.bus.sdaReleased (by rw [hx]; rfl) (by
    rcases MainPoint.waiting_iff.mp hm with hm | hm | hm <;> simp [firstBitSet, hm])
  refine .toLoop h hl rfl rfl rfl rfl hp hd (fun hc => ?_) h.bus.bitCount rfl h.memory
  have := h.bus.sclOnlyStretching hc
  rcases hr with rfl | rfl <;> simpa [stretchJustified, hx] using this

theorem takenXferOk_of_completed {s : State} (hk : idleXferOk s = true) (hc : addressCompleted s = true) :
    takenXferOk s = true := by
  simp only [addressCompleted, Bool.and_eq_true] at hc
  have hb := (autonomous_iff.mp hc.1).1
  unfold idleXferOk at hk
  unfold takenXferOk
  cases hx : s.xfer with
  | finished r => cases r <;> simp_all
  | _ => simp_all

/-- A start is taken by a block whose shifter has what the start needs (R168, R182). -/
theorem BusInv.ofTaking {s : State} (hm : s.main.taking = true) (hi : s.busState = .idle) (hk : takenXferOk s = true)
    (hp : s.progress = .fresh) (hd : s.sdaPull = false) (bits : s.bitcnt.toNat ≤ 8) : BusInv s := by
  have ho : s.main.changingOver = true := by
    cases hs : s.main <;> simp_all [MainPoint.taking, MainPoint.changingOver]
  refine .of ((coherent_taking hm).mpr ⟨hi, hk, hp⟩) (by simp [hd]) (by simp [hd]) (fun _ => ?_) bits
  rcases takenXfer_cases hk with ⟨_, hx⟩ | ⟨_, _, hx, _⟩ <;> simp [stretchJustified, hx, ho]

theorem awaitAddress_onward {s : State} (h : Inv s) (hm : s.main = .loop) : Onward s (awaitAddress s) := by
  obtain ⟨hi, hk, hp⟩ := (coherent_resting (by rw [hm]; rfl)).mp h.bus.coherent
  have stay : Onward s s := ⟨h, rfl, rfl⟩
  have seen (hk : takenXferOk s = true) : Onward s { s with main := .startSeen } :=
    have hd : s.sdaPull = false := h.bus.sdaReleased (inactive_of_taken hk) (by rw [hm]; rfl)
    .of h rfl (.ofTaking rfl hi hk hp hd h.bus.bitCount) nofun (fun _ => h.lowNone hm rfl) h.memory
  unfold awaitAddress
  rw [if_neg (by simp [hi])]
  split
  · split
    · next hc => exact seen (takenXferOk_of_completed hk hc)
    · exact stay
  · next hb =>
    split
    · exact seen ((takenXferOk_plain (by simp [hb])).mpr ((idleXferOk_plain (by simp [hb])).mp hk))
    · exact stay
  · exact stay

theorem startSeen_onward {s : State} (h : Inv s) (hm : s.main = .startSeen) :
    Onward s { s with startF := false, main := .startTaken } := by
  obtain ⟨hi, hk, hp⟩ := (coherent_taking (by rw [hm]; rfl)).mp h.bus.coherent
  have hd : s.sdaPull = false := h.bus.sdaReleased (inactive_of_taken hk) (by rw [hm]; rfl)
  exact .of h rfl (.ofTaking rfl hi hk hp hd h.bus.bitCount) nofun (fun _ => h.lowNone hm rfl) h.memory

theorem enterAddressPhase_onward {s : State} (h : Inv s) (hm : s.main = .startTaken) : Onward s (enterAddressPhase s) := by
  obtain ⟨hi, hk, hp⟩ := (coherent_taking (by rw [hm]; rfl)).mp h.bus.coherent
  have hd : s.sdaPull = false := h.bus.sdaReleased (inactive_of_taken hk) (by rw [hm]; rfl)
  have entry (hx : s.xfer = .halted) : Onward s { s with busState := .addressPhase, main := .rxEntry .clearStop .address } :=
    .of h rfl (.ofBetween rfl rfl hx (by simp [MainPoint.admits, hp]) (by simp [hd]) h.bus.bitCount) nofun
      (fun _ => h.lowNone hm rfl) h.memory
  unfold enterAddressPhase
  rcases takenXfer_cases hk with ⟨hb, hx⟩ | ⟨hb, b, hx, ha⟩
  · split
    · next hb' => exact absurd hb' hb
    · exact entry hx
    · exact entry hx
  · rw [hb]
    refine .of h rfl ?_ nofun (fun _ => h.lowNone hm rfl) h.memory
    refine .of ?_ (by simp [hd]) (by simp [hd]) (by simp [stretchJustified, hx]) h.bus.bitCount
    simp [accessCoherent, hp, hx, ha]

/-! What `await_address` finds when the address byte is complete. -/

theorem coherent_addressByte {s : State} {b : Byte} (hm : s.main = .awaitAddress) (hx : s.xfer = .finished (.byte b)) :
    accessCoherent s = true ↔ s.busState = .addressPhase ∧
      ((s.progress = .fresh ∧ (s.sclPull = true → s.startF = false → addressMatches s.cfg s.cfg.addrMask (addrField b) = true)) ∨
      (s.progress = .addressDir ∧ s.matched = addrField b ∧ addressMatches s.cfg s.cfg.addrMask (addrField b) = true) ∨
      (s.progress = .addressState ∧ s.matched = addrField b ∧ s.dir = rwField b ∧
        addressMatches s.cfg s.cfg.addrMask (addrField b) = true)) := by
  cases hp : s.progress <;> simp [accessCoherent, hm, hx, hp, and_assoc]
  cases s.sclPull <;> cases s.startF <;> simp

/-- Every backend answers a complete address byte alike (R168, R182). -/
theorem addressResult_eq (p : Params) (mask : BitVec 7) (b : Byte) :
    addressResult p mask b = if addressMatches p mask (addrField b) then .matched (addrField b) (rwField b) else .noMatch := by
  unfold addressResult controllerAddress
  cases p.backend <;> cases addressMatches p mask (addrField b) <;> cases h : rwField b <;> simp [ControllerStatus.result]

theorem addressByte_rebuilt (b : Byte) : addrField b ++ BitVec.ofBool (rwField b) = b := by
  revert b
  unfold addrField rwField
  decide

theorem exec_addressInstr {s : State} (hs : s.cfg.servesSlave = true) (b : Byte) :
    exec (addressInstr b) s = .next (finishAddress s.cfg.addrMask b s) := by
  have he : exec (addressInstr b) s = execAddr (addrField b) (rwField b) s := rfl
  rw [he, execAddr, if_pos hs, addressByte_rebuilt]

/-- The writes of `await_address` once its byte is complete, and where they lead (R182, R183, R210). -/
theorem addressByte_onward {s : State} {b : Byte} (h : Inv s) (hm : s.main = .awaitAddress) (hx : s.xfer = .finished (.byte b)) :
    Onward s (afterAddress (finishAddress s.cfg.addrMask b s)) := by
  have hl : s.lowByte = none := h.lowNone hm rfl
  have hd : s.sdaPull = false := h.bus.sdaReleased (by rw [hx]; rfl) (by rw [hm]; rfl)
  have stretch (t : State) (hx : t.xfer = .finished (.byte b)) (_ : t.sclPull = true) : stretchJustified t = true := by
    simp [stretchJustified, hx]
  obtain ⟨hb, ⟨hp, hc⟩ | ⟨hp, hma, ha⟩ | ⟨hp, hma, hdir, ha⟩⟩ := (coherent_addressByte hm hx).mp h.bus.coherent
  · cases ha : addressMatches s.cfg s.cfg.addrMask (addrField b) with
    | true =>
      have e : afterAddress (finishAddress s.cfg.addrMask b s) = { s with matched := addrField b, progress := .addressDir } := by
        simp [finishAddress, hp, addressResult_eq, ha, afterAddress]
      rw [e]
      refine .of h rfl ?_ (by simp [StreamInv, hm, streaming]) (fun _ => hl) h.memory
      exact .of ((coherent_addressByte (by exact hm) (by exact hx)).mpr ⟨hb, .inr (.inl ⟨rfl, rfl, ha⟩)⟩) (by simp [hd])
        (by simp [hd]) (stretch _ hx) h.bus.bitCount
    | false =>
      have e : afterAddress (finishAddress s.cfg.addrMask b s) =
          listen { s with busState := .idle, progress := .fresh, xfer := .halted, main := .loop } := by
        simp [finishAddress, hp, addressResult_eq, ha, afterAddress, enterAccess]
      rw [e]
      refine .toLoop h hl rfl rfl rfl rfl rfl hd (fun hq => ?_) h.bus.bitCount rfl h.memory
      simpa [ha] using hc hq
  · have e : afterAddress (finishAddress s.cfg.addrMask b s) = { s with dir := rwField b, progress := .addressState } := by
      simp [finishAddress, hp, afterAddress]
    rw [e]
    refine .of h rfl ?_ (by simp [StreamInv, hm, streaming]) (fun _ => hl) h.memory
    exact .of ((coherent_addressByte (by exact hm) (by exact hx)).mpr ⟨hb, .inr (.inr ⟨rfl, hma, rfl, ha⟩)⟩) (by simp [hd])
      (by simp [hd]) (stretch _ hx) h.bus.bitCount
  · cases hr : rwField b with
    | true =>
      have e : afterAddress (finishAddress s.cfg.addrMask b s) =
          { s with busState := .readTransfer, progress := .fresh, xfer := .halted, main := .readAccess } := by
        simp [finishAddress, hp, afterAddress, enterAccess, hdir, hr]
      rw [e]
      exact .of h rfl (.ofBetween rfl rfl rfl rfl (by simp [hd]) h.bus.bitCount) nofun (fun _ => hl) h.memory
    | false =>
      have e : afterAddress (finishAddress s.cfg.addrMask b s) =
          { s with busState := .writeTransfer, progress := .fresh, xfer := .halted, main := .writeAccess } := by
        simp [finishAddress, hp, afterAddress, enterAccess, hdir, hr]
      rw [e]
      exact .of h rfl (.ofBetween rfl rfl rfl rfl (by simp [hd]) h.bus.bitCount) nofun (fun _ => hl) h.memory

theorem awaitStep_onward {s : State} (h : Inv s) (hs : s.cfg.servesSlave = true) (hm : s.main = .awaitAddress) :
    ∃ t, awaitStep exec s = .next t ∧ Onward s t := by
  have stay : Onward s s := ⟨h, rfl, rfl⟩
  unfold awaitStep
  split
  · next b hx => exact ⟨_, by rw [exec_addressInstr hs]; rfl, addressByte_onward h hm hx⟩
  · next r hr hx =>
    have hc := h.bus.coherent
    refine ⟨_, rfl, ?_⟩
    cases hp : s.progress <;> cases r <;> simp [accessCoherent, hm, hx, hp] at hc hr
    exact leaveAccess_onward h (by rw [hm]; rfl) hx (.inl rfl) hp
  all_goals exact ⟨_, rfl, stay⟩

/-! ### The entries of the primitives, and what comes after them -/

theorem abortIfSensed_atPoint (m : MainPoint) {s : State} (hb : s.busState ≠ .idle) :
    { abortIfSensed s with main := m } = abortIfSensed { s with main := m } := by
  unfold abortIfSensed abortXfer State.autonomous
  simp only [hb, decide_false, Bool.and_false, Bool.false_and, Bool.not_false, Bool.true_and]
  split
  · split <;> rfl
  · rfl

/-- A rise of the clock in an access does not depend on where the main context stands. -/
theorem clockRise_atPoint (m : MainPoint) {s : State} (hb : s.busState ≠ .idle) :
    { clockRise s with main := m } = clockRise { s with main := m } := by
  obtain ⟨⟩ := s
  rename Xfer => x
  cases x with
  | rxData ack =>
    dsimp only [clockRise]
    split
    · rfl
    · exact abortIfSensed_atPoint m hb
  | rxAck =>
    dsimp only [clockRise]
    split <;> rfl
  | _ => rfl

/-- The last write of an entry, with which the primitive `x` is in progress (R157, R158). -/
theorem releaseClock_bus {s : State} {x : Xfer} {m : MainPoint} (hb : s.busState ≠ .idle)
    (h : BusInv { s with sclPull := false, xfer := x, main := m }) : BusInv { releaseClock x s with main := m } := by
  rcases releaseClock_cases x s with e | e
  · rw [e]
    exact h
  · rw [e, clockRise_atPoint m (by exact hb)]
    exact h.clockRise

theorem rxStep_onward {s : State} {e : RxEntry} {u : RxUse} (h : Inv s) (hm : s.main = .rxEntry e u) : Onward s (rxStep e u s) := by
  have hl : s.lowByte = none := h.lowNone hm rfl
  have hd : s.sdaPull = false := h.sdaBetween hm rfl rfl
  obtain ⟨hb, hx, hp⟩ := h.between hm rfl
  cases e with
  | clearStop =>
    exact .of h rfl (.ofBetween rfl hb hx hp (by simp [rxStep, clearStop, hd]) h.bus.bitCount) nofun (fun _ => hl) h.memory
  | releaseData =>
    obtain ⟨f, g, q, e⟩ := setData_halted false hx (autonomous_between hm rfl hb)
    simp only [rxStep, e]
    exact .of h rfl (.ofBetween rfl hb hx hp nofun h.bus.bitCount) nofun (fun _ => hl) h.memory
  | loadCount =>
    exact .of h rfl (.ofBetween rfl hb hx hp (by simp [rxStep, loadCount, hd]) (by simp [rxStep, loadCount])) nofun
      (fun _ => hl) h.memory
  | releaseClock =>
    have hf : s.progress = .fresh := by simpa [MainPoint.admits] using hp
    have hi : s.busState ≠ .idle := by rw [hb]; cases u <;> simp [MainPoint.accessState, RxUse.busState]
    refine .line (t := { s with main := u.waiting }) h rfl ?_ (fun _ => hl) h.memory ((releaseClock_frame _ s).atPoint _)
      (releaseClock_bus hi (.ofActive rfl ((coherent_rxData rfl).mpr ?_) nofun rfl h.bus.bitCount))
    · cases u <;> nofun
    · cases u with
      | address => exact .address rfl hb hf
      | command => exact .command rfl hb hf

theorem Inv.cursor {s : State} {m : MainPoint} (h : Inv s) (hm : s.main = m) (hs : streaming m = true) : CursorInStream s :=
  h.stream (hm ▸ hs)

theorem txStep_onward {s : State} {e : TxEntry} {b : Byte} (h : Inv s) (hm : s.main = .txEntry e b) : Onward s (txStep e b s) := by
  have hl : s.lowByte = none := h.lowNone hm rfl
  have hc : CursorInStream s := h.cursor hm rfl
  obtain ⟨hb, hx, hp⟩ := h.between hm rfl
  cases e with
  | clearStop =>
    have hd : s.sdaPull = false := h.sdaBetween hm rfl rfl
    exact .of h rfl (.ofBetween rfl hb hx hp (by simp [txStep, clearStop, hd]) h.bus.bitCount) (fun _ => hc) (fun _ => hl) h.memory
  | loadByte =>
    have hd : s.sdaPull = false := h.sdaBetween hm rfl rfl
    exact .of h rfl (.ofBetween rfl hb hx hp (by simp [txStep, loadByte, hd]) h.bus.bitCount) (fun _ => hc) (fun _ => hl) h.memory
  | loadCount =>
    have hd : s.sdaPull = false := h.sdaBetween hm rfl rfl
    exact .of h rfl (.ofBetween rfl hb hx hp (by simp [txStep, loadCount, hd]) (by simp [txStep, loadCount])) (fun _ => hc)
      (fun _ => hl) h.memory
  | setBit =>
    obtain ⟨f, g, q, e⟩ := setData_halted (!s.sr.getLsbD 7) hx (autonomous_between hm rfl hb)
    simp only [txStep, e]
    split
    · exact ⟨h, rfl, rfl⟩
    · exact .of h rfl (.ofBetween rfl hb hx hp (fun _ => rfl) h.bus.bitCount) (fun _ => hc) (fun _ => hl) h.memory
  | releaseClock =>
    have hp : s.progress = .fresh := by simpa [MainPoint.admits] using hp
    exact .line (t := { s with main := .sendByte }) h rfl (fun _ => hc) (fun _ => hl) h.memory
      ((releaseClock_frame _ s).atPoint _)
      (releaseClock_bus (by simp [hb, MainPoint.accessState])
        (.ofActive rfl ((coherent_sending rfl).mpr ⟨rfl, hb, hp⟩) nofun rfl h.bus.bitCount))

end Sys2Proof.Machine
end

section
/-! PROOFS. The accesses and the commands go on inside the invariant, and with them every step of the main context
(R184 to R186, R210 to R213). -/

namespace Sys2Proof.Machine

theorem receiveBegin_onward {s : State} (h : Inv s) (hm : s.main = .writeAccess) : Onward s (receiveBegin s) := by
  obtain ⟨hb, hx, hp⟩ := h.between hm rfl
  have hd : s.sdaPull = false := h.sdaBetween hm rfl rfl
  rw [receiveBegin, if_pos (by exact hb)]
  exact .of h rfl (.ofBetween rfl hb hx hp (by simp [hd]) h.bus.bitCount) nofun (fun _ => h.lowNone hm rfl) h.memory

/-- What a finished `receive_byte` finds (R184). -/
theorem coherent_received {s : State} {r : Status} (hm : s.main = .receiveByte) (hx : s.xfer = .finished r) :
    accessCoherent s = true ↔ s.busState = .writeTransfer ∧ s.progress = .fresh ∧ ((∃ b, r = .byte b) ∨ r = .aborted) := by
  cases r <;> simp [accessCoherent, hm, hx]

theorem receiveStep_onward {s : State} (h : Inv s) (hm : s.main = .receiveByte) : Onward s (receiveStep s) := by
  unfold receiveStep
  split
  · next r hx =>
    obtain ⟨hb, hp, hr⟩ := (coherent_received hm hx).mp h.bus.coherent
    have hd : s.sdaPull = false := h.bus.sdaReleased (by rw [hx]; rfl) (by rw [hm]; rfl)
    have executes (c : Byte) : Onward s { s with xfer := .halted, main := .execute c } :=
      .of h rfl (.ofBetween rfl hb rfl (by simp [MainPoint.admits, progressFits, hp]) (by simp [hd]) h.bus.bitCount) nofun
        (fun _ => h.lowNone hm rfl) h.memory
    rcases hr with ⟨b, rfl⟩ | rfl
    · unfold driverResult
      cases s.cfg.backend <;> exact executes _
    · unfold driverResult
      cases s.cfg.backend <;> exact leaveAccess_onward h (by rw [hm]; rfl) hx (.inl rfl) hp
  all_goals exact ⟨h, rfl, rfl⟩

/-- What a finished `send_byte` finds (R185). -/
theorem coherent_sent {s : State} {r : Status} (hm : s.main = .sendByte) (hx : s.xfer = .finished r) :
    accessCoherent s = true ↔
      s.busState = .readTransfer ∧ s.progress = .fresh ∧ (r = .acked ∨ r = .nacked ∨ r = .aborted) := by
  cases r <;> simp [accessCoherent, hm, hx]

theorem sendStep_onward {s : State} (h : Inv s) (hm : s.main = .sendByte) : Onward s (sendStep s) := by
  unfold sendStep
  split
  · next r hx =>
    obtain ⟨hb, hp, hr⟩ := (coherent_sent hm hx).mp h.bus.coherent
    have hd : s.sdaPull = false := h.bus.sdaReleased (by rw [hx]; rfl) (by rw [hm]; rfl)
    have next : Onward s { s with xfer := .halted, main := .streamByte } :=
      .of h rfl (.ofBetween rfl hb rfl (by simp [MainPoint.admits, hp]) (by simp [hd]) h.bus.bitCount)
        (fun _ => h.cursor hm rfl) (fun _ => h.lowNone hm rfl) h.memory
    have leave (hr : r = .aborted ∨ r = .nacked) : Onward s (leaveAccess s) :=
      leaveAccess_onward h (by rw [hm]; rfl) hx hr hp
    unfold driverResult
    rcases hr with rfl | rfl | rfl
    · cases s.cfg.backend <;> exact next
    · cases s.cfg.backend <;> exact leave (.inr rfl)
    · cases s.cfg.backend <;> exact leave (.inl rfl)
  all_goals exact ⟨h, rfl, rfl⟩

/-! ### `end_access` -/

theorem endAccess_onward {s : State} (h : Inv s) (hm : s.main = .endAccess) : Onward s (endAccess s) := by
  obtain ⟨_, hx, hp⟩ := h.between hm rfl
  have hd : s.sdaPull = false := h.sdaBetween hm rfl rfl
  exact .of h rfl (.ofBetween rfl rfl hx hp (by simp [endAccess, hd]) h.bus.bitCount) nofun (fun _ => h.lowNone hm rfl) h.memory

theorem endData_onward {s : State} (h : Inv s) (hm : s.main = .endData) : Onward s (endData s) := by
  obtain ⟨hb, hx, hp⟩ := h.between hm rfl
  obtain ⟨f, g, q, e⟩ := setData_halted false hx (autonomous_between hm rfl hb)
  simp only [endData, e]
  exact .of h rfl (.ofBetween rfl hb hx hp nofun h.bus.bitCount) nofun (fun _ => h.lowNone hm rfl) h.memory

theorem endClock_onward {s : State} (h : Inv s) (hm : s.main = .endClock) : Onward s (endClock s) := by
  obtain ⟨hb, hx, hp⟩ := h.between hm rfl
  have hd : s.sdaPull = false := h.sdaBetween hm rfl rfl
  have e : releaseClock s.xfer s = { s with sclPull := false } := by
    rcases releaseClock_cases s.xfer s with e | e
    · exact e
    · rw [e]
      simp [clockRise, hx]
  have hp : s.progress = .fresh := by simpa [MainPoint.admits] using hp
  unfold endClock
  rw [e]
  exact .toLoop h (h.lowNone hm rfl) rfl hb rfl hx hp hd nofun h.bus.bitCount rfl h.memory

/-! ### The stream of a read access -/

theorem readAccess_onward {s : State} (h : Inv s) (hm : s.main = .readAccess) :
    Onward s { s with cursor := 0, main := .streamByte } := by
  obtain ⟨hb, hx, hp⟩ := h.between hm rfl
  have hd : s.sdaPull = false := h.sdaBetween hm rfl rfl
  refine .of h rfl (.ofBetween rfl hb hx hp (by simp [hd]) h.bus.bitCount) (fun _ => ?_) (fun _ => h.lowNone hm rfl) h.memory
  exact (Nat.eq_zero_or_pos _).elim (fun e => .inr ⟨e, rfl⟩) .inl

/-- A cursor inside its stream always finds a byte (R60, R62, R213). -/
theorem fetchByte_ok {s : State} (hc : CursorInStream s) :
    ∃ f sn k, fetchByte s = .ok (f, { s with snap := sn, draws := k }) := by
  unfold fetchByte
  unfold CursorInStream at hc
  cases hs : sourceOf s.mode with
  | all =>
    have h5 : s.cursor.val < 5 := by simpa [hs, Source.len] using hc
    dsimp only
    unfold outmemRead
    by_cases h4 : s.cursor.val < 4
    · exact ⟨_, s.snap, s.draws, by rw [dif_pos h4]⟩
    · exact ⟨_, s.snap, s.draws, by rw [dif_neg h4, if_pos (by omega)]⟩
  | channel ch => exact ⟨_, s.snap, s.draws, rfl⟩
  | buttons => exact ⟨_, s.snap, s.draws, rfl⟩
  | rawSamples =>
    have h8 : s.cursor.val < 8 := by simpa [hs, Source.len] using hc
    dsimp only
    rw [dif_pos h8]
    unfold rawByte
    split
    · split
      · exact ⟨_, _, s.draws, rfl⟩
      · exact ⟨_, s.snap, s.draws, rfl⟩
    · exact ⟨_, s.snap, s.draws, rfl⟩
  | trimTable => exact ⟨_, s.snap, s.draws, rfl⟩
  | nothing => exact ⟨_, s.snap, s.draws + 1, rfl⟩

theorem fetchStep_onward {s : State} (h : Inv s) (hm : s.main = .streamByte) : ∃ t, fetchStep s = .next t ∧ Onward s t := by
  obtain ⟨hb, hx, hp⟩ := h.between hm rfl
  have hd : s.sdaPull = false := h.sdaBetween hm rfl rfl
  have hc : CursorInStream s := h.cursor hm rfl
  obtain ⟨f, sn, k, e⟩ := fetchByte_ok hc
  unfold fetchStep
  split
  · exact ⟨s, rfl, h, rfl, rfl⟩
  · exact ⟨{ s with snap := sn, draws := k, main := .composeByte f }, by simp only [e],
      .of h rfl (.ofBetween rfl hb hx hp (by simp [hd]) h.bus.bitCount) (fun _ => hc) (fun _ => h.lowNone hm rfl) h.memory⟩

theorem composeByte_onward {s : State} {f : Fetched} (b : Byte) (h : Inv s) (hm : s.main = .composeByte f) :
    Onward s { s with main := .advance b } := by
  obtain ⟨hb, hx, hp⟩ := h.between hm rfl
  have hd : s.sdaPull = false := h.sdaBetween hm rfl rfl
  exact .of h rfl (.ofBetween rfl hb hx hp (by simp [hd]) h.bus.bitCount) (fun _ => h.cursor hm rfl)
    (fun _ => h.lowNone hm rfl) h.memory

theorem advance_inStream {s : State} (h : CursorInStream s) : CursorInStream (advance s) := by
  unfold CursorInStream at h ⊢
  rw [advance_mode, advance_cursor]
  unfold advanceCursor
  split
  · next h0 => exact .inr ⟨h0, (h.resolve_left (by omega)).2⟩
  · next h0 =>
    have hlt := Nat.mod_lt (s.cursor.val + 1) (Nat.pos_of_ne_zero h0)
    exact .inl ((Nat.mod_le _ _).trans_lt hlt)

theorem advance_onward {s : State} {b : Byte} (h : Inv s) (hm : s.main = .advance b) :
    Onward s { advance s with main := .txEntry .clearStop b } := by
  obtain ⟨hb, hx, hp⟩ := h.between hm rfl
  have hd : s.sdaPull = false := h.sdaBetween hm rfl rfl
  exact .of h rfl (.ofBetween rfl hb hx hp (by simp [hd]) h.bus.bitCount) (fun _ => advance_inStream (h.cursor hm rfl))
    (fun _ => h.lowNone hm rfl) h.memory

/-! ### Commands -/

/-- A command's step has come to a point where a stored word is half read (R276). -/
def Progress.readsWord : Progress → Bool
  | .recomputeMin _ => true
  | .recomputeMax _ _ => true
  | .recomputeFactor _ _ _ => true
  | _ => false

/-- What a step of the command `c` leaves: only the store, `MODE` and the command's own progress move (R232), and these fit. -/
structure CommandStep (c : Byte) (s t : State) : Prop where
  frame : t = { s with
    nv := t.nv, nvBusy := t.nvBusy, nvWrites := t.nvWrites, draws := t.draws, mode := t.mode, progress := t.progress,
    lowByte := t.lowByte }
  fits : progressFits c t.progress = true
  word : t.progress.readsWord = false → t.lowByte = none
  memory : Memory.wf s.cfg t.nv = true

theorem readingWord_execute {s : State} {c : Byte} (hm : s.main = .execute c) : readingWord s = s.progress.readsWord := by
  unfold readingWord
  rw [hm]
  rfl

theorem afterExecute_fresh {t : State} (h : t.progress = .fresh) : afterExecute t = { t with main := .endAccess } := by
  simp [afterExecute, h]

theorem afterExecute_underWay {t : State} (h : t.progress ≠ .fresh) : afterExecute t = t := by
  unfold afterExecute
  cases hp : t.progress <;> simp_all

theorem CommandStep.onward {s t : State} {c : Byte} (h : Inv s) (hm : s.main = .execute c) (hc : CommandStep c s t) :
    Onward s (afterExecute t) := by
  obtain ⟨hb, hx, _⟩ := h.between hm rfl
  have hd : s.sdaPull = false := h.sdaBetween hm rfl rfl
  obtain ⟨nv, busy, writes, draws, mode, p, low, rfl⟩ : ∃ nv busy writes draws mode p low, t = { s with
      nv := nv, nvBusy := busy, nvWrites := writes, draws := draws, mode := mode, progress := p, lowByte := low } :=
    ⟨_, _, _, _, _, _, _, hc.frame⟩
  by_cases hp : p = .fresh
  · rw [afterExecute_fresh hp]
    exact .of h rfl (.ofBetween rfl hb hx (by simpa [MainPoint.admits] using hp) (by simp [hd]) h.bus.bitCount) nofun
      (fun _ => hc.word (by rw [hp]; rfl)) hc.memory
  · rw [afterExecute_underWay hp]
    exact .of h rfl
      (.ofBetween (by rw [hm]; rfl) (by rw [hm]; exact hb) hx (by rw [hm]; exact hc.fits) (by simp [hd]) h.bus.bitCount)
      (by simp [StreamInv, hm, streaming]) (fun hr => hc.word ((readingWord_execute (by exact hm)).symm.trans hr)) hc.memory

/-- A selector stores its value (R217). -/
theorem selectMode_step {s : State} {c : Byte} (h : Inv s) (hm : s.main = .execute c) (v : Byte) :
    CommandStep c s (selectMode v s) where
  frame := rfl
  fits := (h.between hm rfl).2.2
  word hr := h.wordRead ((readingWord_execute hm).trans hr)
  memory := h.memory

theorem nvWrite16_cases (w : Fin 12) (v : Word) (s : State) :
    nvWrite16 w v s = none ∨ nvWrite16 w v s = some (nvCommit w v s) := by
  unfold nvWrite16
  split
  · exact .inl rfl
  · exact .inr rfl

/-- A step of a command that leaves the store alone. -/
theorem CommandStep.reads {s : State} {c : Byte} (h : Inv s) {p : Progress} {low : Option Byte} {k : Nat}
    (fits : progressFits c p = true) (word : p.readsWord = false → low = none) :
    CommandStep c s { s with progress := p, lowByte := low, draws := k } where
  frame := rfl
  fits := fits
  word := word
  memory := h.memory

/-- A word of the store written, once no write is in flight (R64). -/
theorem CommandStep.writes {s : State} {c : Byte} (h : Inv s) (hl : s.lowByte = none) (w : Fin 12) (v : Word) {p : Progress}
    (fits : progressFits c p = true) : CommandStep c s { nvCommit w v s with progress := p } where
  frame := rfl
  fits := fits
  word _ := hl
  memory := nvCommit_wf h.memory w v

theorem cornerSet_step {s : State} {c : Byte} {j : Joystick} {f : TrimField} (h : Inv s) (hm : s.main = .execute c)
    (hc : c = 0x20#8 ∨ c = 0x21#8 ∨ c = 0x23#8 ∨ c = 0x24#8) : CommandStep c s (cornerSet j f s) := by
  have hf : progressFits c s.progress = true := (h.between hm rfl).2.2
  have hl (hr : s.progress.readsWord = false) : s.lowByte = none := h.wordRead ((readingWord_execute hm).trans hr)
  have stays : CommandStep c s s := .reads h hf hl
  unfold cornerSet
  split
  · next hp => exact .reads h (by simpa [progressFits, or_assoc] using hc) fun _ => hl (by rw [hp]; rfl)
  · next x y hp =>
    rcases nvWrite16_cases (trimWord (joystickX j) f) x s with e | e <;> rw [e]
    · exact stays
    · exact .writes h (hl (by rw [hp]; rfl)) _ _ (by simpa [progressFits, or_assoc] using hc)
  · next y hp =>
    rcases nvWrite16_cases (trimWord (joystickY j) f) y s with e | e <;> rw [e]
    · exact stays
    · exact .writes h (hl (by rw [hp]; rfl)) _ _ rfl
  all_goals
    next hp => rw [hp] at hf; rcases hc with rfl | rfl | rfl | rfl <;> simp [progressFits] at hf

/-- The channels of a joystick fit the command that recomputes it (R225, R228). -/
theorem recompute_fits {c : Byte} {j : Joystick} (hc : c = 0x22#8 ∧ j = 0 ∨ c = 0x25#8 ∧ j = 1) {ch : Chan}
    (hj : ch = joystickX j ∨ ch = joystickY j) : progressFits c (.recomputeMin ch) = true := by
  rcases hc with ⟨rfl, rfl⟩ | ⟨rfl, rfl⟩ <;> rcases hj with rfl | rfl <;> decide

theorem recomputeNext_fits {c : Byte} {j : Joystick} (hc : c = 0x22#8 ∧ j = 0 ∨ c = 0x25#8 ∧ j = 1) (ch : Chan) :
    progressFits c (recomputeNext j ch) = true := by
  unfold recomputeNext
  split
  · exact recompute_fits hc (.inr rfl)
  · rfl

theorem scaleFactor_cases (mn mx : Word) (s : State) : ∃ w k, scaleFactor mn mx s = (w, { s with draws := k }) := by
  unfold scaleFactor
  split
  · exact ⟨_, s.draws, rfl⟩
  · exact ⟨_, s.draws + 1, rfl⟩

theorem recompute_step {s : State} {c : Byte} {j : Joystick} (h : Inv s) (hm : s.main = .execute c)
    (hc : c = 0x22#8 ∧ j = 0 ∨ c = 0x25#8 ∧ j = 1) : CommandStep c s (recompute j s) := by
  have hf : progressFits c s.progress = true := (h.between hm rfl).2.2
  have hl (hr : s.progress.readsWord = false) : s.lowByte = none := h.wordRead ((readingWord_execute hm).trans hr)
  have reading (hr : s.progress.readsWord = true) (l : Option Byte) : CommandStep c s { s with lowByte := l } :=
    .reads h hf fun hn => nomatch hr.symm.trans hn
  unfold recompute
  split
  · next hp => exact .reads h (recompute_fits hc (.inl rfl)) nofun
  · next ch hp =>
    rw [hp] at hf
    rcases nvRead16_cases (trimWord ch .min) s with ⟨l, e⟩ | ⟨v, e⟩ <;> rw [e]
    · exact reading (by rw [hp]; rfl) l
    · exact .reads h hf nofun
  · next ch mn hp =>
    rw [hp] at hf
    rcases nvRead16_cases (trimWord ch .max) s with ⟨l, e⟩ | ⟨v, e⟩ <;> rw [e]
    · exact reading (by rw [hp]; rfl) l
    · exact .reads h hf nofun
  · next ch mn mx hp =>
    rw [hp] at hf
    rcases nvRead16_cases (trimWord ch .factor) s with ⟨l, e⟩ | ⟨v, e⟩ <;> rw [e]
    · exact reading (by rw [hp]; rfl) l
    · obtain ⟨w, k, e⟩ := scaleFactor_cases mn mx { s with lowByte := none }
      simp only [e]
      refine .reads h ?_ fun _ => rfl
      split
      · exact recomputeNext_fits hc ch
      · exact hf
  · next ch new hp =>
    rcases nvWrite16_cases (trimWord ch .factor) new s with e | e <;> rw [e]
    · exact .reads h hf hl
    · exact .writes h (hl (by rw [hp]; rfl)) _ _ (recomputeNext_fits hc ch)
  all_goals
    next hp => rw [hp] at hf; rcases hc with ⟨rfl, _⟩ | ⟨rfl, _⟩ <;> simp [progressFits] at hf

/-- A byte in the command context stands for a command, the one it encodes (R92). -/
theorem commandInstr_encodes (c : Byte) : (commandInstr c).context = .command ∧ encodeByte (commandInstr c) = c := by
  revert c
  decide

/-- Every command byte has a step, and it fits (R211). -/
theorem command_step {s : State} {c : Byte} (h : Inv s) (hm : s.main = .execute c) :
    ∃ t, exec (commandInstr c) s = .next t ∧ CommandStep c s t := by
  obtain ⟨hcmd, hc⟩ := commandInstr_encodes c
  have selects (v : Byte) := selectMode_step h hm v
  cases hi : commandInstr c with
  | addr a r => exact nomatch (congrArg Instr.context hi).symm.trans hcmd
  | rdAll => exact ⟨_, rfl, selects _⟩
  | rdX1 => exact ⟨_, rfl, selects _⟩
  | rdY1 => exact ⟨_, rfl, selects _⟩
  | rdX2 => exact ⟨_, rfl, selects _⟩
  | rdY2 => exact ⟨_, rfl, selects _⟩
  | rdBtn => exact ⟨_, rfl, selects _⟩
  | rdRaw => exact ⟨_, rfl, selects _⟩
  | rdTrim => exact ⟨_, rfl, selects _⟩
  | opaqueMode v => exact ⟨_, rfl, selects _⟩
  | calA1 => exact ⟨_, rfl, cornerSet_step h hm (.inl (by rw [← hc, hi]; rfl))⟩
  | calB1 => exact ⟨_, rfl, cornerSet_step h hm (.inr (.inl (by rw [← hc, hi]; rfl)))⟩
  | calA2 => exact ⟨_, rfl, cornerSet_step h hm (.inr (.inr (.inl (by rw [← hc, hi]; rfl))))⟩
  | calB2 => exact ⟨_, rfl, cornerSet_step h hm (.inr (.inr (.inr (by rw [← hc, hi]; rfl))))⟩
  | calF1 => exact ⟨_, rfl, recompute_step h hm (.inl ⟨by rw [← hc, hi]; rfl, rfl⟩)⟩
  | calF2 => exact ⟨_, rfl, recompute_step h hm (.inr ⟨by rw [← hc, hi]; rfl, rfl⟩)⟩

theorem executeStep_onward {s : State} {c : Byte} (h : Inv s) (hm : s.main = .execute c) :
    ∃ t, thenNext (exec (commandInstr c) s) afterExecute = .next t ∧ Onward s t := by
  obtain ⟨t, e, hc⟩ := command_step h hm
  exact ⟨afterExecute t, by rw [e]; rfl, hc.onward h hm⟩

/-! ### Every step of the main context -/

theorem mainStep_onward {s : State} (h : Inv s) (hs : s.cfg.servesSlave = true) (choice : LoopChoice) :
    ∃ t, mainStep exec choice s = .next t ∧ Onward s t := by
  unfold mainStep
  split
  · next hm =>
    cases choice with
    | dispatch => exact ⟨_, rfl, awaitAddress_onward h hm⟩
    | convert => exact ⟨_, rfl, convertTake_onward h hm⟩
  · next hm => exact ⟨_, rfl, startSeen_onward h hm⟩
  · next hm => exact ⟨_, rfl, enterAddressPhase_onward h hm⟩
  · next hm => exact ⟨_, rfl, rxStep_onward h hm⟩
  · next hm => exact awaitStep_onward h hs hm
  · next hm => exact ⟨_, rfl, receiveBegin_onward h hm⟩
  · next hm => exact ⟨_, rfl, receiveStep_onward h hm⟩
  · next hm => exact executeStep_onward h hm
  · next hm => exact ⟨_, rfl, endAccess_onward h hm⟩
  · next hm => exact ⟨_, rfl, endData_onward h hm⟩
  · next hm => exact ⟨_, rfl, endClock_onward h hm⟩
  · next hm => exact ⟨_, rfl, readAccess_onward h hm⟩
  · next hm => exact fetchStep_onward h hm
  · next hm => exact ⟨_, rfl, composeByte_onward _ h hm⟩
  · next hm => exact ⟨_, rfl, advance_onward h hm⟩
  · next hm => exact ⟨_, rfl, txStep_onward h hm⟩
  · next hm => exact ⟨_, rfl, sendStep_onward h hm⟩
  · next hm => exact ⟨_, rfl, convertFlag_onward h hm⟩
  · next hm => exact ⟨_, rfl, convertMin_onward h hm⟩
  · next hm => exact ⟨_, rfl, convertMax_onward h hm⟩
  · next hm => exact ⟨_, rfl, convertFactor_onward h hm⟩
  · next hm => exact ⟨_, rfl, convertOut_onward h hm⟩

end Sys2Proof.Machine
end

section
/-! PROOFS. Every move of the other agents goes on inside the invariant, and so does every step and every run (R12, R304, R344). -/

namespace Sys2Proof.Machine

/-- A move of another agent: what it owns must fit, the rest is the main context's (R315, R320). -/
theorem Onward.agent {s t : State} (h : Inv s) (f : AgentFrame s t) (cap : CapInv t) (debounce : DebInv t) (bus : BusInv t) :
    Onward s t := by
  refine ⟨⟨cap, debounce, bus, ?_, ?_, ?_, f.ie.trans h.enabled⟩, f.cfg, f.asked⟩
  · unfold StreamInv CursorInStream
    rw [f.main, f.mode, f.cursor]
    exact h.stream
  · unfold readingWord
    rw [f.main, f.progress, f.lowByte]
    exact h.wordRead
  · rw [f.cfg, f.nv]
    exact h.memory

/-- What R8 asks of a configuration. -/
theorem Params.wf_bounds {p : Params} (h : p.wf = true) :
    1 ≤ p.captureLimit ∧ p.captureLimit < p.scanPeriod ∧ p.scanPeriod ≤ 0xFFFF ∧ 1 ≤ p.debThreshold := by
  simp only [Params.wf, Bool.and_eq_true, decide_eq_true_eq] at h
  omega

/-- Where the counter has not reached the compare value `t0 + n`, it is below it. -/
theorem elapsed_lt {c t0 : Word} {n : Nat} (hn : n ≤ 0xFFFF) (hle : (c - t0).toNat ≤ n) (hne : c ≠ t0 + BitVec.ofNat 16 n) :
    (c - t0).toNat < n := by
  refine Nat.lt_of_le_of_ne hle fun e => hne ?_
  bv_omega

theorem elapsed_succ_le {c t0 : Word} {n : Nat} (hn : n ≤ 0xFFFF) (h : (c - t0).toNat < n) : (c + 1 - t0).toNat ≤ n := by
  bv_omega

/-- While no compare event is due, phase A is before its deadline (R122, R126). -/
theorem CapInv.before_deadline {s : State} (h : CapInv s) (hw : s.cfg.wf = true) (hd : compareDue s = false)
    (hp : s.phase = .charging) : (s.cnt - s.t0).toNat < s.cfg.captureLimit := by
  obtain ⟨_, _, _, _⟩ := Params.wf_bounds hw
  refine elapsed_lt (by omega) (h.beforeA hp) ?_
  rw [← h.compareA hp]
  simp only [compareDue, evADue, hp, decide_true, Bool.true_and, Bool.or_eq_false_iff, decide_eq_false_iff_not] at hd
  exact hd.1

/-- While no compare event is due, the scan period has not ended (R122, R124). -/
theorem CapInv.before_period {s : State} (h : CapInv s) (hw : s.cfg.wf = true) (hd : compareDue s = false) :
    (s.cnt - s.t0).toNat < s.cfg.scanPeriod := by
  obtain ⟨_, hlt, hs, _⟩ := Params.wf_bounds hw
  cases hp : s.phase with
  | charging => exact (h.before_deadline hw hd hp).trans hlt
  | discharging =>
    refine elapsed_lt hs h.beforeB ?_
    rw [← h.compareB]
    simp only [compareDue, evBDue, hp, decide_true, Bool.true_and, Bool.or_eq_false_iff, decide_eq_false_iff_not] at hd
    exact hd.2

theorem tick_onward {s : State} (h : Inv s) (hw : s.cfg.wf = true) : Onward s (tick s) := by
  obtain ⟨_, hlt, hs, _⟩ := Params.wf_bounds hw
  have f := tick_frame s
  unfold tick at f ⊢
  split at f
  · next hn =>
    rw [if_pos hn]
    exact ⟨h, rfl, rfl⟩
  · next hn =>
    rw [if_neg hn]
    have hd : compareDue s = false := by simp_all
    refine .agent h f ?_ h.debounce (h.bus.same rfl)
    exact
      { pinsCharging := h.cap.pinsCharging
        pinsDischarging := h.cap.pinsDischarging
        compareA := h.cap.compareA
        compareB := h.cap.compareB
        beforeA := fun hp => elapsed_succ_le (hlt.le.trans hs) (h.cap.before_deadline hw hd hp)
        beforeB := elapsed_succ_le hs (h.cap.before_period hw hd)
        captured := h.cap.captured }

theorem evA_cap {s : State} (h : CapInv s) : CapInv (evA s) where
  pinsCharging := nofun
  pinsDischarging _ := ⟨rfl, rfl⟩
  compareA := nofun
  compareB := h.compareB
  beforeA := nofun
  beforeB := h.beforeB
  captured := nofun

theorem evB_cap (s : State) : CapInv (evB s) where
  pinsCharging _ := ⟨rfl, rfl⟩
  pinsDischarging := nofun
  compareA _ := rfl
  compareB := rfl
  beforeA _ := by simp [evB]
  beforeB := by simp [evB]
  captured _ := nofun

theorem compareEvent_onward {s : State} (h : Inv s) : Onward s (compareEvent s) := by
  have f := compareEvent_frame s
  unfold compareEvent at f ⊢
  rw [takeInterrupt_enabled h.enabled] at f ⊢
  split at f
  · next ha =>
    rw [if_pos ha]
    exact .agent h f (evA_cap h.cap) h.debounce (h.bus.same rfl)
  · next ha =>
    rw [if_neg ha]
    split at f
    · next hb =>
      rw [if_pos hb]
      exact .agent h f (evB_cap s) h.debounce (h.bus.same rfl)
    · next hb =>
      rw [if_neg hb]
      exact ⟨h, rfl, rfl⟩

/-- A trip latched before the deadline is a capture inside it (R125). -/
theorem trip_cap {s : State} (h : CapInv s) (hw : s.cfg.wf = true) (hd : compareDue s = false) : CapInv (trip s) := by
  unfold trip
  split
  · exact ⟨h.1, h.2, h.3, h.4, h.5, h.6, fun hp _ => h.before_deadline hw hd hp⟩
  · exact h

theorem trip_same (s : State) : BusSame s (trip s) ∧ (trip s).dbc = s.dbc ∧ (trip s).cfg = s.cfg := by
  unfold trip
  split <;> exact ⟨rfl, rfl, rfl⟩

theorem setCmp_onward {s : State} (h : Inv s) (hw : s.cfg.wf = true) (hd : compareDue s = false) (l : Bool) :
    Onward s (setCmp l s) := by
  have f := setCmp_frame l s
  have hc : CapInv { s with cmp := l } := ⟨h.cap.1, h.cap.2, h.cap.3, h.cap.4, h.cap.5, h.cap.6, h.cap.7⟩
  unfold setCmp at f ⊢
  dsimp only at f ⊢
  split at f
  · next hl =>
    rw [if_pos hl]
    obtain ⟨hb, hdbc, hcfg⟩ := trip_same { s with cmp := l }
    refine .agent h f (trip_cap hc (by exact hw) (by exact hd)) ?_ (BusInv.same (s := { s with cmp := l }) (h.bus.same rfl) hb)
    unfold DebInv
    rw [hdbc, hcfg]
    exact h.debounce
  · next hl =>
    rw [if_neg hl]
    exact .agent h f hc h.debounce (h.bus.same rfl)

/-- A debounce tick leaves every count below the threshold (R252). -/
theorem debounceStep_lt {n : Nat} (hn : 1 ≤ n) (p d : Bool) (k : Nat) : (debounceStep n p d k).2 < n := by
  unfold debounceStep
  split
  · exact hn
  · split
    · exact hn
    · next h => exact Nat.lt_of_not_le h

theorem evD_debounce {s : State} (hw : s.cfg.wf = true) (h : DebInv s) : DebInv (evD s) := by
  obtain ⟨_, _, _, hn⟩ := Params.wf_bounds hw
  unfold evD takeInterrupt
  split
  · intro i
    have ht := debounceStep_lt hn (pressed s i) (s.deb.getLsbD i.val) s.dbc[i]
    fin_cases i <;> exact ht
  · exact h

theorem evD_onward {s : State} (h : Inv s) (hw : s.cfg.wf = true) : Onward s (evD s) := by
  refine .agent h (evD_frame s) ?_ (evD_debounce hw h.debounce) ?_
  · unfold evD
    rw [takeInterrupt_enabled h.enabled]
    exact ⟨h.cap.1, h.cap.2, h.cap.3, h.cap.4, h.cap.5, h.cap.6, h.cap.7⟩
  · unfold evD
    rw [takeInterrupt_enabled h.enabled]
    exact h.bus.same rfl

/-- A move on the lines. -/
theorem Onward.lines {s t : State} (h : Inv s) (g : LineFrame s t) (bus : BusInv t) : Onward s t :=
  .line (t := s) h rfl h.stream h.wordRead h.memory g bus

/-- What no part of the invariant reads may change. -/
theorem Onward.unread {s t : State} (h : Inv s)
    (f : t = { s with sched := t.sched, draws := t.draws, nvBusy := t.nvBusy, btnIn := t.btnIn }) : Onward s t := by
  rw [f]
  exact .of h rfl (h.bus.same rfl) h.stream h.wordRead h.memory

theorem agentMove_onward {s : State} {m : Move} (h : Inv s) (hw : s.cfg.wf = true) (hc : compareFirst m s = false) :
    Onward s (agentMove m s) := by
  cases m with
  | tick => exact tick_onward h hw
  | cmp l =>
    have hd : compareDue s = false := by simpa [compareFirst, afterCompare, h.enabled] using hc
    exact setCmp_onward h hw hd l
  | evD => exact evD_onward h hw
  | btn p => exact .unread h rfl
  | peerSda p => exact .lines h (setPeerSda_frame p s) (h.bus.setPeerSda p)
  | peerScl p => exact .lines h (setPeerScl_frame p s) (h.bus.setPeerScl p)
  | start => exact .lines h ((peerStart_frame s).saw none) (h.bus.peerStart.same rfl)
  | stop => exact .lines h ((peerStop_frame s).saw none) (h.bus.peerStop.same rfl)
  | wbyte b => exact .lines h (peerWrite_frame _ s) (h.bus.peerWrite _)
  | rbyte a => exact .lines h (peerRead_frame _ _ _ s) (h.bus.peerRead _ _ _)
  | wrest bits => exact .lines h (peerWrite_frame _ s) (h.bus.peerWrite _)
  | rrest n acc a => exact .lines h (peerRead_frame _ _ _ s) (h.bus.peerRead _ _ _)
  | retire => exact .unread h rfl
  | dispatch => exact ⟨h, rfl, rfl⟩
  | convert => exact ⟨h, rfl, rfl⟩

theorem waitStep_onward {s : State} (h : Inv s) (hs : s.cfg.servesSlave = true) :
    ∃ t, waitStep exec s = .next t ∧ Onward s t := by
  unfold waitStep
  split
  · exact ⟨_, rfl, .unread h rfl⟩
  · exact mainStep_onward h hs .dispatch

theorem otherStep_onward {s : State} {m : Move} (h : Inv s) (hok : s.cfg.ok = true) :
    ∃ t, otherStep exec m s = .next t ∧ Onward s t := by
  obtain ⟨hw, hs⟩ : s.cfg.wf = true ∧ s.cfg.servesSlave = true := by simpa [Params.ok] using hok
  unfold otherStep
  split
  · exact ⟨_, rfl, (compareEvent_onward h).trans (.unread (compareEvent_onward h).inv rfl)⟩
  · split
    · have ho : Onward s (setPeerScl true s) := .lines h (setPeerScl_frame true s) (h.bus.setPeerScl true)
      exact ⟨_, rfl, ho.trans (.unread ho.inv rfl)⟩
    · split
      · have hp : Onward s (putBack m s) := .unread h rfl
        obtain ⟨t, e, ht⟩ := waitStep_onward hp.inv hs
        exact ⟨t, e, hp.trans ht⟩
      · next hc _ _ =>
        have ho := agentMove_onward h hw (Bool.eq_false_of_not_eq_true hc)
        obtain ⟨ms, e⟩ := putRestBack_sched (moveRest m s) (agentMove m s)
        exact ⟨_, rfl, e ▸ ho.trans (.unread ho.inv rfl)⟩

/-- From the invariant every move of every agent goes on, inside it. -/
theorem moveStep_onward {s : State} (h : Inv s) (hok : s.cfg.ok = true) (m : Move) :
    ∃ t, moveStep exec m s = .next t ∧ Onward s t := by
  have hs : s.cfg.servesSlave = true := by simp_all [Params.ok]
  cases m with
  | dispatch => exact mainStep_onward h hs .dispatch
  | convert => exact mainStep_onward h hs .convert
  | _ => exact otherStep_onward h hok

theorem nextMove_onward {s : State} (h : Inv s) : Onward s (nextMove s).2 := by
  unfold nextMove
  split <;> exact .unread h rfl

/-- One step from the invariant (R12, R32, R304). -/
theorem step_onward {s : State} (h : Inv s) (hok : s.cfg.ok = true) (ha : s.asked = none) :
    ∃ t, step s = .next t ∧ Onward s t := by
  obtain ⟨hw, hs⟩ : s.cfg.wf = true ∧ s.cfg.servesSlave = true := by simpa [Params.ok] using hok
  have hn := nextMove_onward h
  obtain ⟨t, e, ht⟩ := moveStep_onward hn.inv (by rw [hn.cfg]; exact hok) (nextMove s).1
  exact ⟨t, by simp [step, stepWith, hw, hs, ha, e], hn.trans ht⟩

/-- A move of a stream of moves is made from the state the stream has come to (R344). -/
theorem runOn_succ {ms : Nat → Move} {s t : State} {n : Nat} (h : step { runOn ms s n with sched := [ms n] } = .next t) :
    runOn ms s (n + 1) = t := by
  simp only [runOn, h]

/-- The run of a stream of moves goes on inside the invariant, by induction on the moves made. -/
theorem runOn_onward {ms : Nat → Move} {s : State} (h : Inv s) (hok : s.cfg.ok = true) (ha : s.asked = none) (n : Nat) :
    Onward s (runOn ms s n) := by
  induction n with
  | zero => exact ⟨h, rfl, rfl⟩
  | succ n ih =>
    have hq : Onward (runOn ms s n) { runOn ms s n with sched := [ms n] } := .unread ih.inv rfl
    have hp := ih.trans hq
    obtain ⟨t, e, ht⟩ := step_onward hp.inv (by rw [hp.cfg]; exact hok) (by rw [hp.asked]; exact ha)
    rw [runOn_succ e]
    exact hp.trans ht

/-- Settles O58: every step from the invariant goes on inside it, and so does every move of a stream. -/
theorem noFatalPath : Obligations.NoFatalPath := by
  intro s h hok ha
  obtain ⟨t, e, _⟩ := step_onward h hok ha
  refine ⟨⟨t, e⟩, fun ms n => ?_⟩
  have hn := runOn_onward (ms := ms) h hok ha n
  have hp : Onward s { runOn ms s n with sched := [ms n] } := hn.trans (.unread hn.inv rfl)
  obtain ⟨u, e, _⟩ := step_onward hp.inv (by rw [hp.cfg]; exact hok) (by rw [hp.asked]; exact ha)
  exact ⟨hn.inv, by rw [e, runOn_succ e]⟩

end Sys2Proof.Machine
end

section
/-! PROOFS. The invariant holds after reset and every step keeps it (R32, R340). -/

namespace Sys2Proof.Machine

/-- A step that goes on starts in a configuration the block serves, with nothing out of scope asked for (R5, R8, R164). -/
theorem served_of_step_next {s t : State} (h : step s = .next t) : s.cfg.ok = true ∧ s.asked = none := by
  have hb : s.cfg.backend ≠ .softwareBitbang := fun hb => nomatch (step_softwareBitbang hb).symm.trans h
  have hw : s.cfg.wf = true := by
    by_contra hw
    exact nomatch (step_illFormed hb (Bool.eq_false_of_not_eq_true hw)).symm.trans h
  have hok : s.cfg.ok = true := by simp [Params.ok, hw, (servesSlave_iff s.cfg).mpr hb]
  refine ⟨hok, ?_⟩
  cases ha : s.asked with
  | none => rfl
  | some op => exact nomatch (step_asked hok ha).symm.trans h

/-- Settles O56: a step that is taken is the one `step_onward` finds, which stays inside the invariant. -/
theorem stepKeepsInvariant : Obligations.StepKeepsInvariant := by
  intro s t h e
  obtain ⟨hok, ha⟩ := served_of_step_next e
  obtain ⟨u, eu, hu⟩ := step_onward h hok ha
  obtain rfl : u = t := by simpa using eu.symm.trans e
  exact hu.inv

theorem resetWith_cap (p : Params) (d : ResetDraws) (nv : List Host.Cell) : CapInv (State.resetWith p d nv) where
  pinsCharging := nofun
  pinsDischarging _ := ⟨rfl, rfl⟩
  compareA := nofun
  compareB := by simp [State.resetWith]
  beforeA := nofun
  beforeB := by simp [State.resetWith]
  captured := nofun

theorem resetWith_debounce {p : Params} (hw : p.wf = true) (d : ResetDraws) (nv : List Host.Cell) :
    DebInv (State.resetWith p d nv) := by
  obtain ⟨_, _, _, hn⟩ := Params.wf_bounds hw
  intro i
  fin_cases i <;> exact hn

/-- After reset the block is idle, its shifter halted and both lines released, on every backend (R340). -/
theorem resetWith_bus (p : Params) (d : ResetDraws) (nv : List Host.Cell) : BusInv (State.resetWith p d nv) where
  coherent := by
    refine (coherent_resting rfl).mpr ⟨rfl, ?_, rfl⟩
    unfold idleXferOk
    cases hb : (State.resetWith p d nv).cfg.backend <;> rfl
  sdaOnlyInPrimitive := nofun
  ackSlotReleased := nofun
  sclOnlyStretching := nofun
  idleReleases _ _ _ := ⟨rfl, rfl⟩
  bitCount := by simp [State.resetWith]

/-- Settles O55: each part of the invariant from the reset table (R340). -/
theorem resetMeetsInvariant : Obligations.ResetMeetsInvariant := by
  intro p d nv hok hm
  obtain ⟨hw, _⟩ : p.wf = true ∧ p.servesSlave = true := by simpa [Params.ok] using hok
  exact
    ⟨{ cap := resetWith_cap p d nv
       debounce := resetWith_debounce hw d nv
       bus := resetWith_bus p d nv
       stream := nofun
       wordRead := fun _ => rfl
       memory := hm
       enabled := rfl }, rfl⟩

end Sys2Proof.Machine
end

section
/-! PROOFS. What the main context leaves to CAP and DEB (R130, R320), and the range of the raw samples (R32 item 4, R126). -/

namespace Sys2Proof.Machine

/-- `t` with the state of CAP, `UPDATED` apart, the state of DEB, their inputs, the configuration, `IE` and what is asked for taken
from `s`. -/
def withSampling (s t : State) : State :=
  { t with
    cfg := s.cfg, cnt := s.cnt, oca := s.oca, ocb := s.ocb, t0 := s.t0, icr := s.icr, capf := s.capf, phase := s.phase,
    next := s.next, ready := s.ready, raw := s.raw, drive := s.drive, disch := s.disch, dbc := s.dbc, deb := s.deb,
    ie := s.ie, cmp := s.cmp, btnIn := s.btnIn, asked := s.asked }

/-- `t` differs from `s` in nothing of CAP but `UPDATED`, nothing of DEB, nor in the inputs they sample. -/
def SamplingFrame (s t : State) : Prop := withSampling s t = t

theorem SamplingFrame.trans {s t u : State} (h : SamplingFrame s t) (g : SamplingFrame t u) : SamplingFrame s u := by
  unfold SamplingFrame at *
  rw [← g, ← h]
  rfl

theorem SamplingFrame.cfg {s t : State} (h : SamplingFrame s t) : t.cfg = s.cfg := by rw [← h]; rfl
theorem SamplingFrame.raw {s t : State} (h : SamplingFrame s t) : t.raw = s.raw := by rw [← h]; rfl

theorem LineFrame.sampling {s t : State} (h : LineFrame s t) : SamplingFrame s t := by
  unfold SamplingFrame
  unfold LineFrame at h
  rw [← h]
  rfl

/-- Then the lines move. -/
theorem SamplingFrame.line {s t u : State} (h : SamplingFrame s t) (g : LineFrame t u) : SamplingFrame s u :=
  h.trans g.sampling

/-! ### The meanings of the decoded bytes -/

theorem finishAddress_sampling (mask : BitVec 7) (b : Byte) (s : State) : SamplingFrame s (finishAddress mask b s) := by
  unfold finishAddress
  dsimp only
  split
  · split <;> rfl
  all_goals rfl

theorem cornerSet_sampling (j : Joystick) (f : TrimField) (s : State) : SamplingFrame s (cornerSet j f s) := by
  unfold cornerSet
  split
  · rfl
  · next x _ _ => rcases nvWrite16_cases (trimWord (joystickX j) f) x s with e | e <;> rw [e] <;> rfl
  · next y _ => rcases nvWrite16_cases (trimWord (joystickY j) f) y s with e | e <;> rw [e] <;> rfl
  all_goals rfl

theorem recompute_sampling (j : Joystick) (s : State) : SamplingFrame s (recompute j s) := by
  unfold recompute
  split
  · rfl
  · next ch _ => rcases nvRead16_cases (trimWord ch .min) s with ⟨l, e⟩ | ⟨v, e⟩ <;> rw [e] <;> rfl
  · next ch _ _ => rcases nvRead16_cases (trimWord ch .max) s with ⟨l, e⟩ | ⟨v, e⟩ <;> rw [e] <;> rfl
  · next ch mn mx _ =>
    rcases nvRead16_cases (trimWord ch .factor) s with ⟨l, e⟩ | ⟨v, e⟩ <;> rw [e]
    · rfl
    · obtain ⟨w, k, e⟩ := scaleFactor_cases mn mx { s with lowByte := none }
      simp only [e]
      rfl
  · next ch new _ => rcases nvWrite16_cases (trimWord ch .factor) new s with e | e <;> rw [e] <;> rfl
  all_goals rfl

theorem exec_sampling {i : Instr} {s t : State} (h : exec i s = .next t) : SamplingFrame s t := by
  cases i with
  | addr a r =>
    simp only [exec, execAddr] at h
    split at h <;> cases h
    exact finishAddress_sampling _ _ s
  | calA1 => cases h; exact cornerSet_sampling _ _ s
  | calB1 => cases h; exact cornerSet_sampling _ _ s
  | calA2 => cases h; exact cornerSet_sampling _ _ s
  | calB2 => cases h; exact cornerSet_sampling _ _ s
  | calF1 => cases h; exact recompute_sampling _ s
  | calF2 => cases h; exact recompute_sampling _ s
  | _ => cases h; rfl

/-! ### The main context's steps -/

theorem thenNext_eq_next {o : Host.Outcome State Fault Refusal} {f : State → State} {t : State} (h : thenNext o f = .next t) :
    ∃ u, o = .next u ∧ f u = t := by
  cases o with
  | next u => exact ⟨u, rfl, by simpa [thenNext] using h⟩
  | fault r => cases h
  | refused r => cases h

/-- A decoded byte executed, and then what the main context makes of it. -/
theorem executed_sampling {i : Instr} {f : State → State} {s t : State} (hf : ∀ u, SamplingFrame u (f u))
    (h : thenNext (exec i s) f = .next t) : SamplingFrame s t := by
  obtain ⟨u, hu, rfl⟩ := thenNext_eq_next h
  exact (exec_sampling hu).trans (hf u)

theorem leaveAccess_sampling (s : State) : SamplingFrame s (leaveAccess s) :=
  .line (t := { s with busState := .idle, xfer := .halted, main := .loop }) rfl (listen_frame _)

theorem afterAddress_sampling (s : State) : SamplingFrame s (afterAddress s) := by
  unfold afterAddress
  split
  · unfold enterAccess
    split
    · exact .line (t := { s with xfer := .halted, main := .loop }) rfl (listen_frame _)
    · split <;> rfl
  all_goals rfl

theorem afterExecute_sampling (s : State) : SamplingFrame s (afterExecute s) := by
  unfold afterExecute
  split <;> rfl

theorem awaitAddress_sampling (s : State) : SamplingFrame s (awaitAddress s) := by
  unfold awaitAddress
  split
  · rfl
  · split
    · split <;> rfl
    · split <;> rfl
    · rfl

theorem enterAddressPhase_sampling (s : State) : SamplingFrame s (enterAddressPhase s) := by
  unfold enterAddressPhase
  split <;> rfl

theorem awaitStep_sampling {s t : State} (h : awaitStep exec s = .next t) : SamplingFrame s t := by
  unfold awaitStep at h
  split at h
  · exact executed_sampling afterAddress_sampling h
  · cases h
    exact leaveAccess_sampling s
  all_goals cases h; rfl

theorem receiveBegin_sampling (s : State) : SamplingFrame s (receiveBegin s) := by
  unfold receiveBegin
  split <;> rfl

theorem receiveStep_sampling (s : State) : SamplingFrame s (receiveStep s) := by
  unfold receiveStep
  split
  · split
    · rfl
    all_goals exact leaveAccess_sampling s
  all_goals rfl

theorem sendStep_sampling (s : State) : SamplingFrame s (sendStep s) := by
  unfold sendStep
  split
  · split
    · rfl
    all_goals exact leaveAccess_sampling s
  all_goals rfl

theorem rawByte_sampling (k : Nat) (ch : Chan) (s : State) : SamplingFrame s (rawByte k ch s).2 := by
  unfold rawByte
  split
  · dsimp only
    split <;> rfl
  · rfl

theorem fetchByte_sampling {s t : State} {f : Fetched} (h : fetchByte s = .ok (f, t)) : SamplingFrame s t := by
  unfold fetchByte at h
  split at h
  · split at h <;> cases h
    rfl
  · cases h; rfl
  · cases h; rfl
  · split at h
    · obtain rfl := congrArg Prod.snd (Except.ok.inj h)
      exact rawByte_sampling _ _ s
    · cases h
  · cases h; rfl
  · cases h; rfl

theorem fetchStep_sampling {s t : State} (h : fetchStep s = .next t) : SamplingFrame s t := by
  unfold fetchStep at h
  split at h
  · cases h; rfl
  · split at h
    · next f u hf =>
      cases h
      exact (fetchByte_sampling hf).trans rfl
    · cases h

theorem convertTake_sampling (s : State) : SamplingFrame s (convertTake s) := by
  unfold convertTake takeSample critical
  cases s.updated <;> rfl

theorem convertFlag_sampling (ch : Chan) (r : Word) (s : State) : SamplingFrame s (convertFlag ch r s) := by
  unfold convertFlag
  split <;> rfl

theorem convertMin_sampling (ch : Chan) (r : Word) (s : State) : SamplingFrame s (convertMin ch r s) := by
  unfold convertMin
  rcases nvRead16_cases (trimWord ch .min) s with ⟨l, e⟩ | ⟨v, e⟩ <;> rw [e] <;> rfl

theorem convertMax_sampling (ch : Chan) (r mn : Word) (s : State) : SamplingFrame s (convertMax ch r mn s) := by
  unfold convertMax
  rcases nvRead16_cases (trimWord ch .max) s with ⟨l, e⟩ | ⟨v, e⟩ <;> rw [e] <;> rfl

theorem convertFactor_sampling (ch : Chan) (r mn : Word) (s : State) : SamplingFrame s (convertFactor ch r mn s) := by
  unfold convertFactor
  rcases nvRead16_cases (trimWord ch .factor) s with ⟨l, e⟩ | ⟨v, e⟩ <;> rw [e] <;> rfl

theorem convertOut_sampling (ch : Chan) (r mn f : Word) (s : State) : SamplingFrame s (convertOut ch r mn f s) := by
  unfold convertOut convertByte
  split <;> rfl

/-- No step of the main context touches CAP, `UPDATED` apart, or DEB (R130, R320). -/
theorem mainStep_sampling {choice : LoopChoice} {s t : State} (h : mainStep exec choice s = .next t) : SamplingFrame s t := by
  have moved (m : MainPoint) : SamplingFrame s { s with main := m } := rfl
  unfold mainStep at h
  split at h
  · cases choice with
    | dispatch => cases h; exact awaitAddress_sampling s
    | convert => cases h; exact convertTake_sampling s
  · cases h; rfl
  · cases h; exact enterAddressPhase_sampling s
  · cases h; exact (moved _).line (rxStep_frame _ _ s)
  · exact awaitStep_sampling h
  · cases h; exact receiveBegin_sampling s
  · cases h; exact receiveStep_sampling s
  · exact executed_sampling afterExecute_sampling h
  · cases h; rfl
  · cases h; exact (moved _).line (endData_frame s)
  · cases h; exact (moved _).line (endClock_frame s)
  · cases h; rfl
  · exact fetchStep_sampling h
  · cases h; rfl
  · cases h; rfl
  · cases h; exact (moved _).line (txStep_frame _ _ s)
  · cases h; exact sendStep_sampling s
  · cases h; exact convertFlag_sampling _ _ s
  · cases h; exact convertMin_sampling _ _ s
  · cases h; exact convertMax_sampling _ _ _ s
  · cases h; exact convertFactor_sampling _ _ _ s
  · cases h; exact convertOut_sampling _ _ _ _ s

/-! ### The range of the raw samples -/

/-- The range of a sample reads `RAW` and the configuration alone. -/
theorem RawInRange.same {s t : State} {ch : Chan} (h : RawInRange s ch) (hr : t.raw = s.raw) (hc : t.cfg = s.cfg) :
    RawInRange t ch := by
  unfold RawInRange State.rawAt
  rw [hr, hc]
  exact h

theorem RawInRange.sampling {s t : State} {ch : Chan} (h : RawInRange s ch) (f : SamplingFrame s t) : RawInRange t ch :=
  h.same f.raw f.cfg

/-- What `EV_A` records at its deadline is the sentinel or a count captured inside the limit (R126, C7). -/
theorem CapInv.sampleTaken_inRange {s : State} (h : CapInv s) (hd : evADue s = true) :
    sampleTaken s = rawInvalid ∨ (sampleTaken s).toNat < s.cfg.captureLimit := by
  simp only [evADue, Bool.and_eq_true, decide_eq_true_eq] at hd
  unfold sampleTaken
  split
  · next hf => exact .inr (h.captured hd.1 hf)
  · exact .inl rfl

theorem evA_rawAt_same (s : State) : (evA s).rawAt s.next = sampleTaken s := by
  simp [State.rawAt]

theorem evA_rawAt_other {s : State} {ch : Chan} (h : ch ≠ s.next) : (evA s).rawAt ch = s.rawAt ch := by
  have hv : s.next.val ≠ ch.val := fun e => h (Fin.ext e.symm)
  simp [State.rawAt, hv]

theorem evA_inRange {s : State} (h : CapInv s) (hd : evADue s = true) : RawInRange (evA s) s.next := by
  unfold RawInRange
  rw [evA_rawAt_same, evA_cfg]
  exact h.sampleTaken_inRange hd

theorem RawInRange.evA {s : State} {ch : Chan} (h : RawInRange s ch) (hi : CapInv s) (hd : evADue s = true) :
    RawInRange (evA s) ch := by
  by_cases hn : ch = s.next
  · rw [hn]
    exact evA_inRange hi hd
  · unfold RawInRange
    rw [evA_rawAt_other hn, evA_cfg]
    exact h

theorem RawInRange.compareEvent {s : State} {ch : Chan} (h : RawInRange s ch) (hi : Inv s) :
    RawInRange (compareEvent s) ch := by
  unfold Machine.compareEvent
  rw [takeInterrupt_enabled hi.enabled]
  split
  · next ha => exact h.evA hi.cap ha
  · split
    · exact h.same rfl rfl
    · exact h

/-- `EV_A` apart, no move of another agent writes a sample (R126, R320). -/
theorem agentMove_raw (m : Move) (s : State) : (agentMove m s).raw = s.raw := by
  cases m with
  | tick => show (tick s).raw = s.raw; unfold tick; split <;> rfl
  | cmp l =>
    show (setCmp l s).raw = s.raw
    unfold setCmp trip
    dsimp only
    split
    · split <;> rfl
    · rfl
  | evD => show (evD s).raw = s.raw; unfold evD takeInterrupt; split <;> rfl
  | btn p => rfl
  | peerSda p => exact (setPeerSda_frame p s).sampling.raw
  | peerScl p => exact (setPeerScl_frame p s).sampling.raw
  | start => exact (peerStart_frame s).sampling.raw
  | stop => exact (peerStop_frame s).sampling.raw
  | wbyte b => exact (peerWrite_frame _ s).sampling.raw
  | rbyte a => exact (peerRead_frame _ _ _ s).sampling.raw
  | wrest bits => exact (peerWrite_frame _ s).sampling.raw
  | rrest n acc a => exact (peerRead_frame _ _ _ s).sampling.raw
  | retire => rfl
  | dispatch => rfl
  | convert => rfl

theorem RawInRange.waitStep {s t : State} {ch : Chan} (h : RawInRange s ch) (e : waitStep exec s = .next t) :
    RawInRange t ch := by
  unfold Machine.waitStep at e
  split at e
  · cases e
    exact h.same rfl rfl
  · exact h.sampling (mainStep_sampling e)

theorem RawInRange.otherStep {m : Move} {s t : State} {ch : Chan} (h : RawInRange s ch) (hi : Inv s)
    (e : otherStep exec m s = .next t) : RawInRange t ch := by
  unfold Machine.otherStep at e
  split at e
  · cases e
    exact (h.compareEvent hi).same rfl rfl
  · split at e
    · cases e
      exact (h.sampling (setPeerScl_frame true s).sampling).same rfl rfl
    · split at e
      · exact (h.same (t := putBack m s) rfl rfl).waitStep e
      · cases e
        obtain ⟨ms, e⟩ := putRestBack_sched (moveRest m s) (agentMove m s)
        rw [e]
        exact h.same (agentMove_raw m s) (agentMove_frame m s).cfg

theorem RawInRange.moveStep {m : Move} {s t : State} {ch : Chan} (h : RawInRange s ch) (hi : Inv s)
    (e : moveStep exec m s = .next t) : RawInRange t ch := by
  cases m with
  | dispatch => exact h.sampling (mainStep_sampling (choice := .dispatch) e)
  | convert => exact h.sampling (mainStep_sampling (choice := .convert) e)
  | _ => exact h.otherStep hi e

theorem nextMove_raw (s : State) : (nextMove s).2.raw = s.raw := by
  unfold nextMove
  split <;> rfl

/-- In a served configuration a step is the next move made (R10). -/
theorem step_eq_moveStep {s : State} (hok : s.cfg.ok = true) (ha : s.asked = none) :
    step s = moveStep exec (nextMove s).1 (nextMove s).2 := by
  obtain ⟨hw, hs⟩ : s.cfg.wf = true ∧ s.cfg.servesSlave = true := by simpa [Params.ok] using hok
  simp [step, stepWith, hw, hs, ha]

/-- Settles O57: the only step that writes `RAW` is `EV_A`, and at its deadline it writes a sample in range. -/
theorem rawSamplesStayInRange : Obligations.RawSamplesStayInRange := by
  refine fun s hi => ⟨fun t ch h e => ?_, evA_inRange hi.cap⟩
  obtain ⟨hok, ha⟩ := served_of_step_next e
  rw [step_eq_moveStep hok ha] at e
  have hn := nextMove_onward hi
  exact (h.same (nextMove_raw s) hn.cfg).moveStep hn.inv e

end Sys2Proof.Machine
end

section
/-! PROOFS. The rules of the trim store: what a write leaves, what the reads return, and who waits (R64, R65, R66, R72). -/

namespace Sys2Proof.Machine

theorem ofBytes_lo_hi (v : Word) : Word.ofBytes v.lo v.hi = v := by
  have joined : Word.ofBytes v.lo v.hi = v.extractLsb' 0 16 :=
    BitVec.extractLsb'_append_extractLsb'_eq_extractLsb' (by decide : 8 = 0 + 8)
  rw [joined, BitVec.extractLsb'_eq_self]

/-! ### One access -/

theorem nvRead8_waits {s : State} (h : s.nvBusy = true) (k : Fin 24) : nvRead8 k s = none := by
  simp [nvRead8, h]

theorem nvRead8_free {s : State} (h : s.nvBusy = false) (k : Fin 24) : nvRead8 k s = some (s.nvByte k) := by
  simp [nvRead8, h]

theorem nvWrite16_waits {s : State} (h : s.nvBusy = true) (w : Fin 12) (v : Word) : nvWrite16 w v s = none := by
  simp [nvWrite16, h]

theorem nvWrite16_free {s : State} (h : s.nvBusy = false) (w : Fin 12) (v : Word) :
    nvWrite16 w v s = some (nvCommit w v s) := by
  simp [nvWrite16, h]

/-! ### What the commit of a write leaves -/

/-- The two bytes of a word lie side by side, not on each other (R63, R64). -/
theorem nvAddr_wordLo_ne_wordHi (p : Params) (w : Fin 12) : nvAddr p (wordLo w) ≠ nvAddr p (wordHi w) := by
  simp [nvAddr, wordLo, wordHi]

theorem nvCommit_nvByte_lo {s : State} (h : Memory.wf s.cfg s.nv = true) (w : Fin 12) (v : Word) :
    (nvCommit w v s).nvByte (wordLo w) = v.lo := by
  obtain ⟨hr, _⟩ := Bool.and_eq_true_iff.mp h
  simp only [State.nvByte, nvCommit_cfg, nvCommit_nv]
  rw [memRead_memWrite_other _ _ _ (nvAddr_wordLo_ne_wordHi _ w), memRead_memWrite_same _ hr]

theorem nvCommit_nvByte_hi {s : State} (h : Memory.wf s.cfg s.nv = true) (w : Fin 12) (v : Word) :
    (nvCommit w v s).nvByte (wordHi w) = v.hi := by
  obtain ⟨hr, _⟩ := Bool.and_eq_true_iff.mp (memWrite_wf s.cfg h (wordLo w) v.lo)
  simp only [State.nvByte, nvCommit_cfg, nvCommit_nv]
  rw [memRead_memWrite_same _ hr]

/-- Two writes of one byte each leave every third address alone. -/
theorem nvCommit_sameOutside (s : State) (w : Fin 12) (v : Word) :
    storeSameOutside s (nvCommit w v s) [wordLo w, wordHi w] := by
  intro a ha
  simp only [List.map_cons, List.map_nil, List.mem_cons, List.not_mem_nil, or_false, not_or] at ha
  obtain ⟨hlo, hhi⟩ := ha
  rw [nvCommit_cfg, nvCommit_nv, memRead_memWrite_other _ _ _ hhi, memRead_memWrite_other _ _ _ hlo]

theorem nvCommit_storesWord {s : State} (h : Memory.wf s.cfg s.nv = true) (w : Fin 12) (v : Word) :
    storesWord s (nvCommit w v s) w v :=
  ⟨nvCommit_nvByte_lo h w v, nvCommit_nvByte_hi h w v, nvCommit_sameOutside s w v⟩

/-- Once no write is in flight, the reads of the two bytes of a stored word give them back. -/
theorem storesWord.reads {s t : State} {w : Fin 12} {v : Word} (h : storesWord s t w v) (hb : t.nvBusy = false) :
    nvRead8 (wordLo w) t = some v.lo ∧ nvRead8 (wordHi w) t = some v.hi := by
  obtain ⟨hlo, hhi, _⟩ := h
  simp [nvRead8_free hb, hlo, hhi]

/-- The read of a stored word takes its low byte first. -/
theorem storesWord.readsLow {s t : State} {w : Fin 12} {v : Word} (h : storesWord s t w v) (hb : t.nvBusy = false)
    (hl : t.lowByte = none) : nvRead16 w t = (none, { t with lowByte := some v.lo }) := by
  obtain ⟨hlo, _⟩ := h
  rw [nvRead16_low hb hl, hlo]

/-- The low byte taken, the read of a stored word takes its high byte and has the word. -/
theorem storesWord.readsHigh {s t : State} {w : Fin 12} {v : Word} (h : storesWord s t w v) (hb : t.nvBusy = false)
    (hl : t.lowByte = some v.lo) : nvRead16 w t = (some v, { t with lowByte := none }) := by
  obtain ⟨_, hhi, _⟩ := h
  rw [nvRead16_high hb hl, hhi, ofBytes_lo_hi]

/-- Settles O30: the commit stores the word, and neither the retirement nor the byte kept by a read touches the store. -/
theorem storeWriteThenRead : Obligations.StoreWriteThenRead := by
  refine fun s w v => ⟨fun hb hm => ?_, fun hb => ⟨nvWrite16_waits hb w v, nvRead16_waits hb, nvRead8_waits hb⟩⟩
  have stored := nvCommit_storesWord hm w v
  have retired : storesWord s (retire (nvCommit w v s)) w v := stored
  have halfRead : storesWord s { retire (nvCommit w v s) with lowByte := some v.lo } w v := stored
  obtain ⟨hlo, hhi⟩ := retired.reads rfl
  exact ⟨nvCommit w v s, nvWrite16_free hb w v, stored, rfl, nvRead16_waits rfl, hlo, hhi, retired.readsLow rfl,
    halfRead.readsHigh rfl rfl⟩

end Sys2Proof.Machine
end

section
/-! PROOFS. The main context waiting for the store changes nothing, and the other agents move meanwhile (R64, R66, R72, R362). -/

namespace Sys2Proof.Machine

/-! ### The operations that access the store, while a write is in flight -/

theorem cornerSet_waits {s : State} {x y : Word} (hb : s.nvBusy = true)
    (hp : s.progress = .cornerFirst x y ∨ s.progress = .cornerSecond y) (j : Joystick) (f : TrimField) :
    cornerSet j f s = s := by
  rcases hp with hp | hp <;> simp [cornerSet, hp, nvWrite16_waits hb]

theorem recompute_waits {s : State} {ch : Chan} {a b : Word} (hb : s.nvBusy = true)
    (hp : s.progress = .recomputeMin ch ∨ s.progress = .recomputeMax ch a ∨ s.progress = .recomputeFactor ch a b ∨
      s.progress = .recomputeWrite ch a) (j : Joystick) : recompute j s = s := by
  rcases hp with hp | hp | hp | hp <;> simp [recompute, hp, nvRead16_waits hb, nvWrite16_waits hb]

theorem convertMin_waits {s : State} (hb : s.nvBusy = true) (ch : Chan) (r : Word) : convertMin ch r s = s := by
  simp [convertMin, nvRead16_waits hb]

theorem convertMax_waits {s : State} (hb : s.nvBusy = true) (ch : Chan) (r mn : Word) : convertMax ch r mn s = s := by
  simp [convertMax, nvRead16_waits hb]

theorem convertFactor_waits {s : State} (hb : s.nvBusy = true) (ch : Chan) (r mn : Word) : convertFactor ch r mn s = s := by
  simp [convertFactor, nvRead16_waits hb]

theorem fetchStep_waits {s : State} (hb : s.nvBusy = true) (hm : sourceOf s.mode = .trimTable) : fetchStep s = .next s := by
  simp [fetchStep, streamWaits, hm, nvRead8_waits hb]

/-! ### The commands that access the store -/

/-- The command bytes a corner's progress fits are the corner commands (R223, R224, R226, R227). -/
theorem exec_cornerSet {c : Byte} {x y : Word} (h : progressFits c (.cornerFirst x y) = true) :
    ∃ j f, ∀ s, exec (commandInstr c) s = .next (cornerSet j f s) := by
  simp only [progressFits, Bool.or_eq_true, beq_iff_eq, or_assoc] at h
  rcases h with rfl | rfl | rfl | rfl <;> exact ⟨_, _, fun _ => rfl⟩

/-- The command bytes a recomputation's progress fits are the recompute commands (R225, R228). -/
theorem exec_recompute {c : Byte} {ch : Chan} (h : progressFits c (.recomputeMin ch) = true) :
    ∃ j, ∀ s, exec (commandInstr c) s = .next (recompute j s) := by
  simp only [progressFits, Bool.or_eq_true, Bool.and_eq_true, beq_iff_eq] at h
  rcases h with ⟨rfl, _⟩ | ⟨rfl, _⟩ <;> exact ⟨_, fun _ => rfl⟩

/-- A command whose next step accesses the store waits (R275, R276). -/
theorem exec_waits {s : State} {c : Byte} (hb : s.nvBusy = true) (hf : progressFits c s.progress = true)
    (hn : s.progress.needsStore = true) : exec (commandInstr c) s = .next s := by
  cases hp : s.progress with
  | cornerFirst x y =>
    obtain ⟨j, f, e⟩ := exec_cornerSet (hp ▸ hf)
    rw [e, cornerSet_waits hb (.inl hp)]
  | cornerSecond y =>
    obtain ⟨j, f, e⟩ := exec_cornerSet (x := y) (y := y) (hp ▸ hf)
    rw [e, cornerSet_waits (x := y) hb (.inr hp)]
  | recomputeMin ch =>
    obtain ⟨j, e⟩ := exec_recompute (hp ▸ hf)
    rw [e, recompute_waits (a := 0) (b := 0) hb (.inl hp)]
  | recomputeMax ch mn =>
    obtain ⟨j, e⟩ := exec_recompute (ch := ch) (hp ▸ hf)
    rw [e, recompute_waits (b := 0) hb (.inr (.inl hp))]
  | recomputeFactor ch mn mx =>
    obtain ⟨j, e⟩ := exec_recompute (ch := ch) (hp ▸ hf)
    rw [e, recompute_waits hb (.inr (.inr (.inl hp)))]
  | recomputeWrite ch new =>
    obtain ⟨j, e⟩ := exec_recompute (ch := ch) (hp ▸ hf)
    rw [e, recompute_waits (b := 0) hb (.inr (.inr (.inr hp)))]
  | fresh => simp [hp, Progress.needsStore] at hn
  | addressDir => simp [hp, Progress.needsStore] at hn
  | addressState => simp [hp, Progress.needsStore] at hn

/-! ### The step of the main context -/

/-- Where the main context's next step accesses the store: in a command, in the stream of the trim table, in `CONVERT` (R64). -/
theorem needsStore_cases {s : State} (h : needsStore s = true) :
    (∃ c, s.main = .execute c ∧ s.progress.needsStore = true) ∨ (s.main = .streamByte ∧ sourceOf s.mode = .trimTable) ∨
    (∃ ch r, s.main = .convertMin ch r) ∨ (∃ ch r mn, s.main = .convertMax ch r mn) ∨
    ∃ ch r mn, s.main = .convertFactor ch r mn := by
  cases hm : s.main with
  | execute c => exact .inl ⟨c, rfl, by simpa [needsStore, hm] using h⟩
  | streamByte => exact .inr (.inl ⟨rfl, by simpa [needsStore, hm] using h⟩)
  | convertMin ch r => exact .inr (.inr (.inl ⟨ch, r, rfl⟩))
  | convertMax ch r mn => exact .inr (.inr (.inr (.inl ⟨ch, r, mn, rfl⟩)))
  | convertFactor ch r mn => exact .inr (.inr (.inr (.inr ⟨ch, r, mn, rfl⟩)))
  | _ => simp [needsStore, hm] at h

theorem afterExecute_needsStore {s : State} (h : s.progress.needsStore = true) : afterExecute s = s :=
  afterExecute_underWay fun hp => by simp [hp, Progress.needsStore] at h

/-- Each of these steps waits, and changes nothing (R64, R66). -/
theorem mainStep_storeWaits {s : State} (hc : accessCoherent s = true) (hw : storeWaits s = true) (choice : LoopChoice) :
    mainStep exec choice s = .next s := by
  obtain ⟨hb, hn⟩ : s.nvBusy = true ∧ needsStore s = true := by simpa [storeWaits] using hw
  rcases needsStore_cases hn with ⟨c, hm, hp⟩ | ⟨hm, hs⟩ | ⟨ch, r, hm⟩ | ⟨ch, r, mn, hm⟩ | ⟨ch, r, mn, hm⟩ <;>
    simp only [mainStep, hm]
  · obtain ⟨_, _, hf⟩ := (coherent_between (by rw [hm]; rfl)).mp hc
    rw [hm] at hf
    rw [exec_waits hb hf hp, thenNext, afterExecute_needsStore hp]
  · exact fetchStep_waits hb hs
  · rw [convertMin_waits hb]
  · rw [convertMax_waits hb]
  · rw [convertFactor_waits hb]

/-! ### The steps of the other agents -/

/-- In a served configuration the step with a move scheduled is that move (R10). -/
theorem step_of_sched {s : State} {m : Move} {ms : List Move} (hok : s.cfg.ok = true) (ha : s.asked = none)
    (hs : s.sched = m :: ms) : step s = moveStep exec m { s with sched := ms } := by
  rw [← step_scheduled hok ha m ms, ← hs]

theorem moveStep_other {m : Move} (hm : mainsMove m = false) (run : Meaning) (s : State) :
    moveStep run m s = otherStep run m s := by
  cases m with
  | dispatch => cases hm
  | convert => cases hm
  | _ => rfl

theorem compareEvent_evA {s : State} (hi : s.ie = true) (h : evADue s = true) : compareEvent s = evA s := by
  rw [compareEvent, takeInterrupt_enabled hi, if_pos h]

theorem compareEvent_evB {s : State} (hi : s.ie = true) (h : evBDue s = true) : compareEvent s = evB s := by
  have ha : evADue s = false := by
    simp only [evBDue, Bool.and_eq_true, decide_eq_true_eq] at h
    simp [evADue, h.1]
  rw [compareEvent, takeInterrupt_enabled hi, if_neg (by simp [ha]), if_pos h]

/-- A compare event neither reads nor changes the schedule. -/
theorem compareEvent_sched (s : State) (ms : List Move) :
    compareEvent { s with sched := ms } = { compareEvent s with sched := ms } := by
  have ha : evADue { s with sched := ms } = evADue s := rfl
  have hb : evBDue { s with sched := ms } = evBDue s := rfl
  unfold compareEvent takeInterrupt
  dsimp only
  rw [ha, hb]
  split
  · split
    · rfl
    · split <;> rfl
  · rfl

/-- A compare event that is due is the step, and the move that was scheduled stays scheduled (R122, R313, log 10). -/
theorem step_compareEvent {s : State} {m : Move} {ms : List Move} (hok : s.cfg.ok = true) (ha : s.asked = none)
    (hs : s.sched = m :: ms) (hm : mainsMove m = false) (hf : compareFirst m s = true) : step s = .next (compareEvent s) := by
  have hf' : compareFirst m { s with sched := ms } = true := hf
  have kept : putBack m { compareEvent s with sched := ms } = compareEvent s := by
    unfold putBack
    rw [← hs, ← (compareEvent_frame s).sched]
  rw [step_of_sched hok ha hs, moveStep_other hm, otherStep, if_pos hf', compareEvent_sched, kept]

/-- A move of another agent that nothing comes before is the step (R10). -/
theorem step_agentMove {s : State} {m : Move} {ms : List Move} (hok : s.cfg.ok = true) (ha : s.asked = none)
    (hs : s.sched = m :: ms) (hm : mainsMove m = false) (hf : compareFirst m s = false) (hl : lowersClock m s = false)
    (hw : mustWait m s = false) :
    step s = .next (putRestBack (moveRest m { s with sched := ms }) (agentMove m { s with sched := ms })) := by
  have hf' : compareFirst m { s with sched := ms } = false := hf
  have hl' : lowersClock m { s with sched := ms } = false := hl
  have hw' : mustWait m { s with sched := ms } = false := hw
  rw [step_of_sched hok ha hs, moveStep_other hm, otherStep_free hf' hl' hw']

theorem tick_free {s : State} (hi : s.ie = true) (hd : compareDue s = false) : tick s = { s with cnt := s.cnt + 1 } := by
  simp [tick, hi, hd]

theorem evD_sched (s : State) (ms : List Move) : evD { s with sched := ms } = { evD s with sched := ms } := by
  unfold evD takeInterrupt
  split <;> rfl

/-- Settles O37: the main context waits at each access to the store, and the moves of the other agents take effect meanwhile. -/
theorem storeWaitAdmitsInterrupts : Obligations.StoreWaitAdmitsInterrupts := by
  intro s m ms hok ha hc hi hw hs
  have waits (choice : LoopChoice) : mainStep exec choice { s with sched := ms } = .next { s with sched := ms } :=
    mainStep_storeWaits (s := { s with sched := ms }) hc hw choice
  refine ⟨?_, ?_, ?_, ?_, ?_, ?_⟩
  · rintro (rfl | rfl) <;> rw [step_of_sched hok ha hs]
    · exact waits .dispatch
    · exact waits .convert
  · rintro rfl
    exact step_agentMove hok ha hs rfl rfl (by simp [lowersClock]) rfl
  · rintro rfl hd
    rw [step_agentMove hok ha hs rfl (by simp [compareFirst, hd]) (by simp [lowersClock]) (by simp [mustWait, hi]),
      ← evD_sched]
    rfl
  · rintro rfl hd
    have hd' : compareDue { s with sched := ms } = false := hd
    rw [step_agentMove hok ha hs rfl (by simp [compareFirst, hd]) (by simp [lowersClock]) (by simp [mustWait, hi])]
    exact congrArg Host.Outcome.next (tick_free hi hd')
  · rintro rfl hd
    rw [step_compareEvent hok ha hs rfl (by simp [compareFirst, afterCompare, hi, compareDue, hd]), compareEvent_evA hi hd]
  · rintro rfl hd
    rw [step_compareEvent hok ha hs rfl (by simp [compareFirst, afterCompare, hi, compareDue, hd]), compareEvent_evB hi hd]

end Sys2Proof.Machine
end

section
/-! PROOFS. The two tables of the encoding, read both ways, and the address match (R90 to R92, R101, R103). -/

namespace Sys2Proof.Machine

/-- The encoder and the decoder agree on every instruction, each by its own row (R90, R92). -/
theorem decodeByte_encodeByte (i : Instr) : Laws.RoundTrip.Statement i := by
  cases i with
  | addr a r => exact Laws.RoundTrip.addr a r
  | rdAll => exact Laws.RoundTrip.rdAll
  | rdX1 => exact Laws.RoundTrip.rdX1
  | rdY1 => exact Laws.RoundTrip.rdY1
  | rdX2 => exact Laws.RoundTrip.rdX2
  | rdY2 => exact Laws.RoundTrip.rdY2
  | rdBtn => exact Laws.RoundTrip.rdBtn
  | calA1 => exact Laws.RoundTrip.calA1
  | calB1 => exact Laws.RoundTrip.calB1
  | calF1 => exact Laws.RoundTrip.calF1
  | calA2 => exact Laws.RoundTrip.calA2
  | calB2 => exact Laws.RoundTrip.calB2
  | calF2 => exact Laws.RoundTrip.calF2
  | rdRaw => exact Laws.RoundTrip.rdRaw
  | rdTrim => exact Laws.RoundTrip.rdTrim
  | opaqueMode c => exact Laws.RoundTrip.opaqueMode c

/-- `OPAQUE` is decoded from no value that names a command (R101, R231). -/
theorem decodeCommand_wellFormed (b : Byte) : (decodeCommand b).wellFormed = true := by
  revert b
  decide

/-- Settles O1: row by row from an instruction to its byte, table by table from a byte to its instruction. -/
theorem decodeAndEncodeAgree : Obligations.DecodeAndEncodeAgree := by
  refine ⟨fun i hi => ?_, fun ctx b => ?_⟩
  · have hd : decode i.context (encode i) = .ok (decodeByte i.context (encodeByte i), []) := rfl
    rw [hd, decodeByte_encodeByte i hi]
  · cases ctx with
    | address => exact ⟨rfl, rfl, addressByte_rebuilt b⟩
    | command => exact ⟨decodeCommand_wellFormed b, commandInstr_encodes b⟩

/-- Settles O2: each word is looked up in its table. -/
theorem tableWordsDecode : Obligations.TableWordsDecode := by
  unfold Obligations.TableWordsDecode
  decide

/-- The deployment's mask drops the lowest bit (R91). -/
theorem toNat_and_deploymentMask (a : BitVec 7) : (a &&& 0b1111110#7).toNat = 2 * (a.toNat / 2) := by
  revert a
  decide

theorem addressMatches_iff (p : Params) (mask a : BitVec 7) :
    addressMatches p mask a = true ↔ a &&& mask = p.slaveAddr &&& mask := by
  simp [addressMatches]

/-- Settles O3: under the deployment's mask two addresses agree when their halves do, and an even address and the next one have the
same half. -/
theorem addressMatchIsMaskedEquality : Obligations.AddressMatchIsMaskedEquality := by
  refine ⟨addressMatches_iff, fun p a he => ?_⟩
  have even : p.slaveAddr.toNat % 2 = 0 := by
    simpa [BitVec.getLsbD, Nat.testBit_zero] using he
  rw [addressMatches_iff, ← BitVec.toNat_inj, toNat_and_deploymentMask, toNat_and_deploymentMask]
  bv_omega

end Sys2Proof.Machine
end

section
/-! PROOFS. Runs over a schedule: the moves taken one after the other, what is scheduled after them left alone (R10, log 1). -/

namespace Sys2Proof.Machine

/-- From `s` the scheduled moves `ms` lead to `t`, one step each, whatever is scheduled after them. -/
inductive Takes : List Move → State → State → Prop
  | nil {s : State} : Takes [] s s
  | cons {m : Move} {ms : List Move} {s t u : State}
      (first : ∀ rest, step { s with sched := m :: rest } = .next { t with sched := rest }) (others : Takes ms t u) :
      Takes (m :: ms) s u

theorem Takes.trans {ms ms' : List Move} {s t u : State} (h : Takes ms s t) (g : Takes ms' t u) : Takes (ms ++ ms') s u := by
  induction h with
  | nil => exact g
  | cons first _ ih => exact .cons first (ih g)

/-- The machine run for as many steps as moves are scheduled. -/
theorem Takes.run {ms : List Move} {s t : State} (h : Takes ms s t) :
    core.run ms.length { s with sched := ms } = .next { t with sched := [] } := by
  induction h with
  | nil => rfl
  | @cons m ms s t u first _ ih =>
    have hs : core.step { s with sched := m :: ms } = .next { t with sched := ms } := first ms
    simp only [List.length_cons, Host.Core.run, hs]
    exact ih

/-- A move that changes nothing may be made any number of times. -/
theorem Takes.replicate {m : Move} {s : State} (h : Takes [m] s s) (n : Nat) : Takes (List.replicate n m) s s := by
  induction n with
  | zero => exact .nil
  | succ n ih => exact h.trans ih

/-- This many turns of the main context. -/
def turns (n : Nat) : List Move := List.replicate n .dispatch

/-- The configuration is one the block serves, and nothing out of scope is asked for (R5, R8, R164). -/
def Served (s : State) : Prop := s.cfg.ok = true ∧ s.asked = none

/-- The main context's turn is its next step. -/
theorem Takes.turn {s t : State} (hs : Served s)
    (h : ∀ rest, mainStep exec .dispatch { s with sched := rest } = .next { t with sched := rest }) : Takes [.dispatch] s t :=
  .cons (fun rest => by rw [step_scheduled hs.1 hs.2]; exact h rest) .nil

/-- A move of another agent that nothing comes before, and that leaves nothing over. -/
theorem Takes.other {s t : State} {m : Move} (hs : Served s) (hm : mainsMove m = false) (hf : compareFirst m s = false)
    (hl : lowersClock m s = false) (hw : mustWait m s = false)
    (h : ∀ rest, moveRest m { s with sched := rest } = none ∧
      agentMove m { s with sched := rest } = { t with sched := rest }) : Takes [m] s t := by
  refine .cons (fun rest => ?_) .nil
  rw [step_agentMove (s := { s with sched := m :: rest }) hs.1 hs.2 rfl hm hf hl hw]
  obtain ⟨hr, ha⟩ := h rest
  simp only [hr, putRestBack]
  exact congrArg Host.Outcome.next ha

/-- A write in flight retires (R65). -/
theorem Takes.retires {s : State} (hs : Served s) : Takes [.retire] s { s with nvBusy := false } :=
  .other hs rfl rfl (by simp [lowersClock]) rfl fun _ => ⟨rfl, rfl⟩

/-- With no start pending, or on the controller no completed address byte, the poll changes nothing (R182, C10). -/
theorem awaitAddress_quiet {s : State} (hf : s.startF = false ∨ s.cfg.backend = .controller) (hc : addressCompleted s = false) :
    awaitAddress s = s := by
  unfold awaitAddress
  cases hb : s.cfg.backend <;> simp_all

/-- On the controller a completed address byte is found by the poll (R168, R182). -/
theorem awaitAddress_completed {s : State} {b : Byte} (ha : s.autonomous = true) (hx : s.xfer = .finished (.byte b)) :
    awaitAddress s = { s with main := .startSeen } := by
  obtain ⟨hb, hi, _⟩ := autonomous_iff.mp ha
  have hc : addressCompleted s = true := by simp [addressCompleted, ha, hx]
  simp only [awaitAddress, hi, hb, hc]
  rfl

/-- The poll of `await_address`, between operations of the main loop (R343). -/
theorem Takes.inLoop {s t : State} (hs : Served s) (hm : s.main = .loop)
    (h : ∀ rest, awaitAddress { s with sched := rest } = { t with sched := rest }) : Takes [.dispatch] s t :=
  .turn hs fun rest => by
    simp only [mainStep, hm]
    rw [← hm, h]

theorem Takes.polls {s : State} (hs : Served s) (hm : s.main = .loop) (hf : s.startF = false ∨ s.cfg.backend = .controller)
    (hc : addressCompleted s = false) : Takes [.dispatch] s s :=
  .inLoop hs hm fun _ => awaitAddress_quiet hf hc

end Sys2Proof.Machine
end

section
/-! PROOFS. A host's byte into a receiver at its first bit (R157, R160, R187). -/

namespace Sys2Proof.Machine

theorem lineEdges_same (s : State) : lineEdges s.sda s.scl s = s := by
  unfold lineEdges
  cases s.sda <;> cases s.scl <;> simp

/-- While the clock stays low the data line makes no edge that is sensed (R153). -/
theorem lineEdges_low {s : State} (h : s.scl = false) (a : Bool) : lineEdges a false s = s := by
  simp [lineEdges, h]

theorem lineEdges_rise {s : State} (h : s.scl = true) (a : Bool) : lineEdges a false s = clockRise s := by
  simp [lineEdges, h]

theorem lineEdges_fall {s : State} (h : s.scl = false) (a : Bool) : lineEdges a true s = clockFall s := by
  simp [lineEdges, h]

/-- The data line falling while the clock is high is a start condition (R152). -/
theorem lineEdges_start {s : State} (hc : s.scl = true) (hd : s.sda = false) : lineEdges true true s = senseStart s := by
  simp [lineEdges, hc, hd]

theorem setPeerScl_falls {s : State} (h : s.scl = true) : setPeerScl true s = clockFall { s with peerScl := true } := by
  rw [setPeerScl, drivingLines, h]
  exact lineEdges_fall (by simp [State.scl]) _

theorem setPeerSda_starts {s : State} (hc : s.scl = true) (hd : s.sda = true) :
    setPeerSda true s = senseStart { s with peerSda := true } := by
  rw [setPeerSda, drivingLines, hc, hd]
  exact lineEdges_start hc (by simp [State.sda])

theorem abortXfer_scl (s : State) : (abortXfer s).scl = s.scl := by
  unfold abortXfer
  split <;> rfl

/-- Nobody pulls or releases the clock at its rising edge. -/
theorem clockRise_scl (s : State) : (clockRise s).scl = s.scl := by
  unfold clockRise abortIfSensed
  split
  · split
    · rfl
    · split
      · exact abortXfer_scl _
      · rfl
  · split <;> rfl
  all_goals rfl

/-- A clock pulse from a clock only the peer holds: the data line is set, the clock rises, and falls again (R153). -/
theorem peerPulse_low {s : State} (hp : s.peerScl = true) (hc : s.sclPull = false) (bit : Bool) :
    peerPulse bit s =
      ((clockRise { s with peerSda := !bit, peerScl := false }).sda,
        clockFall { clockRise { s with peerSda := !bit, peerScl := false } with peerScl := true }) := by
  have low : s.scl = false := by simp [State.scl, hp]
  have held : setPeerScl true s = s := by
    have hs : { s with peerScl := true } = s := by rw [← hp]
    rw [setPeerScl, drivingLines, hs, lineEdges_same]
  have set : setPeerSda (!bit) s = { s with peerSda := !bit } := by
    rw [setPeerSda, drivingLines, low]
    exact lineEdges_low (s := { s with peerSda := !bit }) low _
  have rise : setPeerScl false { s with peerSda := !bit } = clockRise { s with peerSda := !bit, peerScl := false } := by
    have low' : State.scl { s with peerSda := !bit } = false := low
    rw [setPeerScl, drivingLines, low']
    exact lineEdges_rise (by simp [State.scl, hc]) _
  have high : (clockRise { s with peerSda := !bit, peerScl := false }).scl = true := by
    rw [clockRise_scl]
    simp [State.scl, hc]
  rw [peerPulse, held, set, rise, setPeerScl_falls high]

/-- Nothing sensed aborts the primitive in progress: there is no condition, or the start an idle controller's byte belongs to. -/
def Undisturbed (s : State) : Prop := s.autonomous = true ∨ s.startF = false ∧ s.stopF = false

theorem abortIfSensed_undisturbed {s : State} (h : Undisturbed s) : abortIfSensed s = s := by
  unfold abortIfSensed
  rcases h with h | ⟨h, h'⟩ <;> simp_all

/-- A receiver samples a bit at the rising edge (R157). -/
theorem clockRise_data {s : State} {ack : AckPolicy} (hx : s.xfer = .rxData ack) (hn : s.bitcnt ≠ 0) (hu : Undisturbed s) :
    clockRise s = { s with sr := shiftIn s.sr s.sda, bitcnt := s.bitcnt - 1 } := by
  have quiet := abortIfSensed_undisturbed (s := { s with sr := shiftIn s.sr s.sda, bitcnt := s.bitcnt - 1 }) hu
  simp only [clockRise, hx, if_neg hn]
  rw [← hx, quiet]

theorem clockFall_data {s : State} {ack : AckPolicy} (hx : s.xfer = .rxData ack) (hn : s.bitcnt ≠ 0) : clockFall s = s := by
  simp only [clockFall, hx, if_neg hn]

/-- After the eighth bit the receiver answers (R157). -/
theorem clockFall_answers {s : State} {ack : AckPolicy} (hx : s.xfer = .rxData ack) (hn : s.bitcnt = 0) :
    clockFall s = { s with sdaPull := ack.eval s.cfg s.sr, bitcnt := 1, xfer := .rxAck } := by
  simp [clockFall, hx, hn]

/-- After the acknowledgement slot the byte is there, and an acknowledged one is followed by a stretch (R157, R160). -/
theorem clockFall_completes {s : State} (hx : s.xfer = .rxAck) (hn : s.bitcnt = 0)
    (ha : s.autonomous = false ∨ s.sdaPull = true) :
    clockFall s = { s with sdaPull := false, sclPull := s.sdaPull, xfer := .finished (.byte s.sr) } := by
  rcases ha with ha | ha <;> simp [clockFall, hx, hn, ha]

/-- `RxByte` runs, the peer alone holds the clock, and nothing aborts the primitive (R157). -/
structure Receiving (s : State) (ack : AckPolicy) : Prop where
  xfer : s.xfer = .rxData ack
  peerScl : s.peerScl = true
  sclPull : s.sclPull = false
  sdaPull : s.sdaPull = false
  undisturbed : Undisturbed s

/-- The bit of a pulse is in the shift register while the clock is high. -/
theorem Receiving.samples {s : State} {ack : AckPolicy} (h : Receiving s ack) (hn : s.bitcnt ≠ 0) (bit : Bool) :
    clockRise { s with peerSda := !bit, peerScl := false } =
      { s with peerSda := !bit, peerScl := false, sr := shiftIn s.sr bit, bitcnt := s.bitcnt - 1 } := by
  have hd : State.sda { s with peerSda := !bit, peerScl := false } = bit := by simp [State.sda, h.sdaPull]
  have hr := clockRise_data (s := { s with peerSda := !bit, peerScl := false }) h.xfer hn h.undisturbed
  rwa [hd] at hr

/-- A data bit that is not the last is shifted in, and nothing else (R157). -/
theorem Receiving.shifts {s : State} {ack : AckPolicy} (h : Receiving s ack) (h0 : s.bitcnt ≠ 0) (h1 : s.bitcnt ≠ 1)
    (bit : Bool) :
    (peerPulse bit s).2 = { s with peerSda := !bit, sr := shiftIn s.sr bit, bitcnt := s.bitcnt - 1 } := by
  have hn : s.bitcnt - 1 ≠ 0 := fun e => h1 (by bv_omega)
  rw [peerPulse_low h.peerScl h.sclPull, h.samples h0]
  simp only [← h.peerScl]
  exact clockFall_data h.xfer hn

/-- The last data bit is followed by the receiver's answer (R157). -/
theorem Receiving.answers {s : State} {ack : AckPolicy} (h : Receiving s ack) (h1 : s.bitcnt = 1) (bit : Bool) :
    (peerPulse bit s).2 = { s with
      peerSda := !bit, sr := shiftIn s.sr bit, bitcnt := 1, sdaPull := ack.eval s.cfg (shiftIn s.sr bit), xfer := .rxAck } := by
  have hn : s.bitcnt - 1 = 0 := by rw [h1]; rfl
  rw [peerPulse_low h.peerScl h.sclPull, h.samples (by rw [h1]; decide)]
  simp only [← h.peerScl]
  exact clockFall_answers h.xfer hn

/-- In the acknowledgement slot the host sees the receiver's answer, and the byte is complete (R157, R187). -/
theorem peerWrite_slot {s : State} (hx : s.xfer = .rxAck) (hn : s.bitcnt = 1) (hp : s.peerScl = true) (hc : s.sclPull = false)
    (ha : s.autonomous = false ∨ s.sdaPull = true) :
    peerWrite [] s = ({ s with
      bitcnt := 0, xfer := .finished (.byte s.sr), peerSda := false, sdaPull := false, sclPull := s.sdaPull,
      hostSaw := some (.ack s.sdaPull) }, none) := by
  have rise : clockRise { s with peerSda := !true, peerScl := false } =
      { s with peerSda := false, peerScl := false, bitcnt := 0 } := by
    simp [clockRise, hx, hn]
  have pulse : peerPulse true s = (!s.sdaPull, { s with
      bitcnt := 0, xfer := .finished (.byte s.sr), peerSda := false, sdaPull := false, sclPull := s.sdaPull }) := by
    rw [peerPulse_low hp hc, rise]
    simp only [← hp]
    exact Prod.ext (by simp [State.sda]) (clockFall_completes (s := { s with peerSda := false, bitcnt := 0 }) hx rfl ha)
  simp only [peerWrite, hc, pulse, Bool.not_not, Bool.false_eq_true, if_false]

theorem peerWrite_bit {s : State} (hc : s.sclPull = false) (bit : Bool) (bits : List Bool) :
    peerWrite (bit :: bits) s = peerWrite bits (peerPulse bit s).2 := by
  simp only [peerWrite, hc]
  rfl

/-- A byte's bits from the first on, and the acknowledgement slot: the bits are in the shift register, and the host sees the
receiver's operand on them. By induction on the bits to come. -/
theorem Receiving.writes {s : State} {ack : AckPolicy} {bit : Bool} {bits : List Bool} (h : Receiving s ack)
    (hn : s.bitcnt.toNat = bits.length + 1)
    (ha : s.autonomous = false ∨ ack.eval s.cfg ((bit :: bits).foldl shiftIn s.sr) = true) :
    peerWrite (bit :: bits) s = ({ s with
      sr := (bit :: bits).foldl shiftIn s.sr, bitcnt := 0, xfer := .finished (.byte ((bit :: bits).foldl shiftIn s.sr)),
      peerSda := false, sclPull := ack.eval s.cfg ((bit :: bits).foldl shiftIn s.sr),
      hostSaw := some (.ack (ack.eval s.cfg ((bit :: bits).foldl shiftIn s.sr))) }, none) := by
  induction bits generalizing s bit with
  | nil =>
    have h1 : s.bitcnt = 1 := BitVec.eq_of_toNat_eq hn
    have last := h.answers h1 bit
    rw [peerWrite_bit h.sclPull, peerWrite_slot (by rw [last]) (by rw [last]) (by rw [last]; exact h.peerScl)
      (by rw [last]; exact h.sclPull) (by rw [last]; exact ha), last]
    simp only [← h.sdaPull]
    rfl
  | cons b bs ih =>
    have h0 : s.bitcnt ≠ 0 := fun e => by rw [e] at hn; cases hn
    have h1 : s.bitcnt ≠ 1 := fun e => by rw [e] at hn; cases hn
    have next : Receiving (peerPulse bit s).2 ack := by
      rw [h.shifts h0 h1]
      exact ⟨h.xfer, h.peerScl, h.sclPull, h.sdaPull, h.undisturbed⟩
    have ih := ih (bit := b) next
    rw [h.shifts h0 h1] at ih
    have count : (s.bitcnt - 1).toNat = bs.length + 1 := by
      rw [List.length_cons] at hn
      bv_omega
    rw [peerWrite_bit h.sclPull, h.shifts h0 h1]
    exact ih count ha

theorem shiftIn_getLsbD (sr : Byte) (bit : Bool) (i : Nat) :
    (shiftIn sr bit).getLsbD i = if i = 0 then bit else decide (i < 8) && sr.getLsbD (i - 1) := by
  rw [shiftIn, BitVec.getLsbD_append]
  cases i with
  | zero => simp
  | succ i =>
    have lt : i + 1 < 8 ↔ i < 7 := by omega
    simp [BitVec.getLsbD_extractLsb', lt]

/-- The bits of a byte, shifted in one after the other, are the byte (R69). -/
theorem foldl_shiftIn_msbFirst (sr b : Byte) : (msbFirst b).foldl shiftIn sr = b := by
  apply BitVec.eq_of_getLsbD_eq
  intro i hi
  simp only [msbFirst, List.foldl, shiftIn_getLsbD]
  interval_cases i <;> rfl

/-- The host sends a byte to a receiver at its first bit (R157, R160, R187). -/
theorem Receiving.takesByte {s : State} {ack : AckPolicy} (h : Receiving s ack) (hn : s.bitcnt = 8) (b : Byte)
    (ha : s.autonomous = false ∨ ack.eval s.cfg b = true) :
    peerWrite (msbFirst b) s = ({ s with
      sr := b, bitcnt := 0, xfer := .finished (.byte b), peerSda := false, sclPull := ack.eval s.cfg b,
      hostSaw := some (.ack (ack.eval s.cfg b)) }, none) := by
  have hw := h.writes (bit := b.getLsbD 7) (bits := (msbFirst b).tail) (by rw [hn]; rfl)
  have hb : b.getLsbD 7 :: (msbFirst b).tail = msbFirst b := rfl
  rw [hb, foldl_shiftIn_msbFirst] at hw
  exact hw ha

end Sys2Proof.Machine
end

section
/-! PROOFS. The main context's turns in a write access: the address byte taken, the command byte received, the access ended (R182,
R184, R186, R210). -/

namespace Sys2Proof.Machine

/-! ### Writes of the lines that make no edge -/

theorem setData_released {s : State} (h : s.sdaPull = false) : setData false s = s := by
  have hs : { s with sdaPull := false } = s := by rw [← h]
  rw [setData, drivingLines, hs, lineEdges_same]

/-- While the peer holds the clock its release by the block makes no edge (R160). -/
theorem releaseClock_held {s : State} (h : s.peerScl = true) (x : Xfer) :
    releaseClock x s = { s with sclPull := false, xfer := x } := by
  have low : s.scl = false := by simp [State.scl, h]
  rw [releaseClock, drivingLines, low]
  exact lineEdges_low (by simp [State.scl, h]) _

/-! ### The byte primitive -/

theorem Takes.enters {s t : State} {e : RxEntry} {u : RxUse} (hs : Served s) (hm : s.main = .rxEntry e u)
    (h : ∀ rest, rxStep e u { s with sched := rest } = { t with sched := rest }) : Takes [.dispatch] s t :=
  .turn hs fun rest => by
    simp only [mainStep, hm]
    rw [← hm, h]

/-- The four writes of the entry of `RxByte`, the peer holding the clock (R157). -/
theorem Takes.startsReceiving {s : State} {u : RxUse} (hs : Served s) (hm : s.main = .rxEntry .clearStop u)
    (hd : s.sdaPull = false) (hp : s.peerScl = true) :
    Takes (turns 4) s { s with
      stopF := false, bitcnt := 8, sclPull := false, xfer := .rxData (u.ack s.cfg), main := u.waiting } := by
  have stop : Takes [.dispatch] s { s with stopF := false, main := .rxEntry .releaseData u } :=
    .enters hs hm fun _ => rfl
  have data : Takes [.dispatch] { s with stopF := false, main := .rxEntry .releaseData u }
      { s with stopF := false, main := .rxEntry .loadCount u } :=
    .enters hs rfl fun _ => by rw [rxStep, setData_released]; exact hd
  have count : Takes [.dispatch] { s with stopF := false, main := .rxEntry .loadCount u }
      { s with stopF := false, bitcnt := 8, main := .rxEntry .releaseClock u } :=
    .enters hs rfl fun _ => rfl
  have clock : Takes [.dispatch] { s with stopF := false, bitcnt := 8, main := .rxEntry .releaseClock u }
      { s with stopF := false, bitcnt := 8, sclPull := false, xfer := .rxData (u.ack s.cfg), main := u.waiting } :=
    .enters hs rfl fun _ => by rw [rxStep, releaseClock_held]; exact hp
  exact stop.trans (data.trans (count.trans clock))

/-- The host's byte into the receiver is one move, which leaves nothing over (R187). -/
theorem Receiving.takes {s : State} {ack : AckPolicy} (h : Receiving s ack) (hs : Served s) (hn : s.bitcnt = 8) {b : Byte}
    (ha : ack.eval s.cfg b = true) :
    Takes [.wbyte b] s { s with
      sr := b, bitcnt := 0, xfer := .finished (.byte b), peerSda := false, sclPull := true,
      hostSaw := some (.ack true) } := by
  refine .other hs rfl rfl (by simp [lowersClock, h.peerScl]) h.sclPull fun rest => ?_
  have hr : Receiving { s with sched := rest } ack := ⟨h.xfer, h.peerScl, h.sclPull, h.sdaPull, h.undisturbed⟩
  have hw := hr.takesByte hn b (.inr ha)
  simp only [ha] at hw
  exact ⟨congrArg Prod.snd hw, congrArg Prod.fst hw⟩

/-! ### The address byte -/

theorem Takes.finishesAddress {s t : State} {b : Byte} (hs : Served s) (hm : s.main = .awaitAddress)
    (hx : s.xfer = .finished (.byte b))
    (h : ∀ rest, afterAddress (finishAddress s.cfg.addrMask b { s with sched := rest }) = { t with sched := rest }) :
    Takes [.dispatch] s t :=
  .turn hs fun rest => by
    have hv : s.cfg.servesSlave = true := by
      have := hs.1
      simp_all [Params.ok]
    have he := exec_addressInstr (s := { s with sched := rest }) hv b
    simp only [mainStep, hm, awaitStep, hx]
    rw [← hm, ← hx, he]
    exact congrArg _ (h rest)

/-- The three writes of a match with the direction bit clear lead into the write access (R182, R210). -/
theorem Takes.entersWriteAccess {s : State} {b : Byte} (hs : Served s) (hm : s.main = .awaitAddress)
    (hx : s.xfer = .finished (.byte b)) (hp : s.progress = .fresh)
    (ha : addressMatches s.cfg s.cfg.addrMask (addrField b) = true) (hr : rwField b = false) :
    Takes (turns 3) s { s with
      matched := addrField b, dir := false, busState := .writeTransfer, progress := .fresh, xfer := .halted,
      main := .writeAccess } := by
  have matched : Takes [.dispatch] s { s with matched := addrField b, progress := .addressDir } :=
    .finishesAddress hs hm hx fun _ => by simp [finishAddress, hp, addressResult_eq, ha, afterAddress]
  have dir : Takes [.dispatch] { s with matched := addrField b, progress := .addressDir }
      { s with matched := addrField b, dir := false, progress := .addressState } :=
    .finishesAddress hs hm hx fun _ => by simp [finishAddress, hr, afterAddress]
  have state : Takes [.dispatch] { s with matched := addrField b, dir := false, progress := .addressState } { s with
      matched := addrField b, dir := false, busState := .writeTransfer, progress := .fresh, xfer := .halted,
      main := .writeAccess } :=
    .finishesAddress hs hm hx fun _ => by simp [finishAddress, hr, afterAddress, enterAccess]
  exact matched.trans (dir.trans state)

/-! ### `receive_byte` -/

theorem Takes.inReceive {s t : State} (hs : Served s) (hm : s.main = .receiveByte)
    (h : ∀ rest, receiveStep { s with sched := rest } = { t with sched := rest }) : Takes [.dispatch] s t :=
  .turn hs fun rest => by
    simp only [mainStep, hm]
    rw [← hm, h]

/-- `receive_byte` waits while its byte comes in (R184, R189). -/
theorem Takes.waitsForByte {s : State} {ack : AckPolicy} (hs : Served s) (hm : s.main = .receiveByte)
    (hx : s.xfer = .rxData ack) : Takes [.dispatch] s s :=
  .inReceive hs hm fun _ => by simp only [receiveStep, hx]

/-- `receive_byte` delivers the byte in the shift register (R168, R184). -/
theorem Takes.deliversCommand {s : State} {c : Byte} (hs : Served s) (hm : s.main = .receiveByte)
    (hx : s.xfer = .finished (.byte c)) (hr : s.sr = c) :
    Takes [.dispatch] s { s with xfer := .halted, main := .execute c } :=
  .inReceive hs hm fun _ => by
    cases hb : s.cfg.backend <;> simp [receiveStep, hx, driverResult, hb, controllerData, ControllerStatus.result, hr]

/-! ### The end of the access -/

/-- The block serves an access between two primitives: no start waits, the shifter stands still, the data line is released. -/
def Serving (s : State) : Prop := Served s ∧ s.startF = false ∧ s.xfer = .halted ∧ s.sdaPull = false

/-- What a command begun in `s` leaves once the access is over (R186, R232). -/
def CommandOver (s t : State) : Prop :=
  ∃ nv busy writes draws, t = { s with
    nv := nv, nvBusy := busy, nvWrites := writes, draws := draws, lowByte := none, main := .loop, progress := .fresh,
    busState := .idle, sclPull := false }

theorem endData_released {s : State} (h : s.sdaPull = false) : endData s = { s with main := .endClock } := by
  rw [endData, setData_released h]

/-- With no start latched and the shifter standing still the release of the clock is all that is left (R186). -/
theorem endClock_quiet {s : State} (hx : s.xfer = .halted) (hf : s.startF = false) :
    endClock s = { s with sclPull := false, main := .loop } := by
  have release : releaseClock s.xfer s = { s with sclPull := false } := by
    rcases releaseClock_cases s.xfer s with e | e
    · exact e
    · rw [e]
      simp [clockRise, hx]
  simp [endClock, release, listen, hf]

theorem Takes.leaves {s : State} (h : Served s) (hm : s.main = .endAccess) :
    Takes [.dispatch] s { s with busState := .idle, main := .endData } :=
  .turn h fun _ => by simp only [mainStep, hm, endAccess]

theorem Takes.releases {s : State} (h : Serving s) (hm : s.main = .endData) :
    Takes (turns 2) s { s with sclPull := false, main := .loop } := by
  obtain ⟨hs, hf, hx, hd⟩ := h
  have data : Takes [.dispatch] s { s with main := .endClock } := .turn hs fun rest => by
    have e := endData_released (s := { s with sched := rest }) hd
    simp only [mainStep, hm]
    rw [← hm, e]
  have clock : Takes [.dispatch] { s with main := .endClock } { s with sclPull := false, main := .loop } :=
    .turn hs fun rest => congrArg Host.Outcome.next (endClock_quiet (s := { s with main := .endClock, sched := rest }) hx hf)
  exact data.trans clock

/-- Once the access is over the poll finds nothing, as often as it is made. -/
theorem CommandOver.polls {s t : State} (h : CommandOver s t) (hs : Serving s) (n : Nat) :
    Takes (turns n) t t := by
  obtain ⟨hv, hf, hx, _⟩ := hs
  obtain ⟨nv, busy, writes, draws, e⟩ := h
  have served : Served t := by rw [e]; exact hv
  exact .replicate (.polls served (by rw [e]) (.inl (by rw [e]; exact hf)) (by simp [addressCompleted, e, hx])) n

theorem CommandOver.retires {s t : State} (h : CommandOver s t) (hs : Serving s) :
    ∃ u, Takes [.retire] t u ∧ CommandOver s u := by
  obtain ⟨nv, busy, writes, draws, rfl⟩ := h
  exact ⟨_, .retires hs.1, ⟨nv, false, writes, draws, rfl⟩⟩

/-- A command that is done ends the access, and the poll finds nothing from then on. -/
theorem Takes.ends {s : State} (h : Serving s) (hm : s.main = .endAccess) (hp : s.progress = .fresh) (hl : s.lowByte = none)
    (n : Nat) : ∃ t, Takes (turns (n + 3)) s t ∧ CommandOver s t := by
  have leave := Takes.leaves h.1 hm
  have release := Takes.releases (s := { s with busState := .idle, main := .endData }) h rfl
  have hover : CommandOver s { s with busState := .idle, main := .loop, sclPull := false } :=
    ⟨s.nv, s.nvBusy, s.nvWrites, s.draws, by simp only [hp, hl]⟩
  exact ⟨_, leave.trans (release.trans (hover.polls h n)), hover⟩

end Sys2Proof.Machine
end

section
/-! PROOFS. Every command comes to its end under `commandMoves` (R211, R217, R275, R276). -/

namespace Sys2Proof.Machine

/-- The step of a command, and what it leaves to do (R211). -/
theorem Takes.executes {s t : State} {c : Byte} (h : Serving s) (hm : s.main = .execute c)
    (he : ∀ rest, exec (commandInstr c) { s with sched := rest } = .next { t with sched := rest }) :
    Takes [.dispatch] s (afterExecute t) :=
  .turn h.1 fun rest => by
    have ha : afterExecute { t with sched := rest } = { afterExecute t with sched := rest } := by
      by_cases hp : t.progress = .fresh
      · rw [afterExecute_fresh hp, afterExecute_fresh (by exact hp)]
      · rw [afterExecute_underWay hp, afterExecute_underWay (by exact hp)]
    simp only [mainStep, hm]
    rw [← hm, he rest, thenNext, ha]

/-- A step that leaves the command under way. -/
theorem Takes.goesOn {s t : State} {c : Byte} (h : Serving s) (hm : s.main = .execute c) (ht : t.progress ≠ .fresh)
    (he : ∀ rest, exec (commandInstr c) { s with sched := rest } = .next { t with sched := rest }) :
    Takes [.dispatch] s t := by
  have step := Takes.executes h hm he
  rwa [afterExecute_underWay ht] at step

/-- The last step of a command. -/
theorem Takes.finishes {s t : State} {c : Byte} (h : Serving s) (hm : s.main = .execute c) (ht : t.progress = .fresh)
    (he : ∀ rest, exec (commandInstr c) { s with sched := rest } = .next { t with sched := rest }) :
    Takes [.dispatch] s { t with main := .endAccess } := by
  have step := Takes.executes h hm he
  rwa [afterExecute_fresh ht] at step

/-- A step that commits a word of the store and leaves the command under way. -/
theorem Takes.writes {s : State} {c : Byte} {p : Progress} {w : Fin 12} {v : Word} (h : Serving s) (hm : s.main = .execute c)
    (hp : p ≠ .fresh)
    (he : ∀ rest, exec (commandInstr c) { s with sched := rest } =
      .next { nvCommit w v { s with sched := rest } with progress := p }) :
    ∃ nv n, Takes [.dispatch] s { s with nv := nv, nvWrites := n, nvBusy := true, progress := p } :=
  ⟨_, _, .goesOn (t := { nvCommit w v s with progress := p }) h hm hp he⟩

/-- The last step of a command that commits a word of the store. -/
theorem Takes.writesLast {s : State} {c : Byte} {w : Fin 12} {v : Word} (h : Serving s) (hm : s.main = .execute c)
    (he : ∀ rest, exec (commandInstr c) { s with sched := rest } =
      .next { nvCommit w v { s with sched := rest } with progress := .fresh }) :
    ∃ nv n, Takes [.dispatch] s { s with nv := nv, nvWrites := n, nvBusy := true, progress := .fresh, main := .endAccess } :=
  ⟨_, _, .finishes (t := { nvCommit w v s with progress := .fresh }) h hm rfl he⟩

/-! ### The selectors -/

/-- A command byte outside 32 to 37 becomes `MODE` (R217 to R222, R229 to R231). -/
theorem exec_selects {i : Instr} (hi : i.context = .command)
    (hc : ¬ (32 ≤ (encodeByte i).toNat ∧ (encodeByte i).toNat ≤ 37)) (s : State) :
    exec i s = .next (selectMode (encodeByte i) s) := by
  cases i with
  | addr a r => cases hi
  | calA1 => exact absurd (by decide) hc
  | calB1 => exact absurd (by decide) hc
  | calF1 => exact absurd (by decide) hc
  | calA2 => exact absurd (by decide) hc
  | calB2 => exact absurd (by decide) hc
  | calF2 => exact absurd (by decide) hc
  | _ => rfl

/-- The command bytes are the selectors, the corner commands and the recompute commands (R92). -/
theorem commandInstr_kinds (c : Byte) :
    (¬ (32 ≤ c.toNat ∧ c.toNat ≤ 37) ∧ ∀ s, exec (commandInstr c) s = .next (selectMode c s)) ∨
    ((32 ≤ c.toNat ∧ c.toNat ≤ 37) ∧
      ((∃ j f, ∀ s, exec (commandInstr c) s = .next (cornerSet j f s)) ∨
        ∃ j, ∀ s, exec (commandInstr c) s = .next (recompute j s))) := by
  by_cases hc : 32 ≤ c.toNat ∧ c.toNat ≤ 37
  · have named : c = 0x20#8 ∨ c = 0x21#8 ∨ c = 0x22#8 ∨ c = 0x23#8 ∨ c = 0x24#8 ∨ c = 0x25#8 := by bv_omega
    refine .inr ⟨hc, ?_⟩
    rcases named with rfl | rfl | rfl | rfl | rfl | rfl
    · exact .inl ⟨0, .min, fun _ => rfl⟩
    · exact .inl ⟨0, .max, fun _ => rfl⟩
    · exact .inr ⟨0, fun _ => rfl⟩
    · exact .inl ⟨1, .min, fun _ => rfl⟩
    · exact .inl ⟨1, .max, fun _ => rfl⟩
    · exact .inr ⟨1, fun _ => rfl⟩
  · obtain ⟨hi, he⟩ := commandInstr_encodes c
    refine .inl ⟨hc, fun s => ?_⟩
    rw [exec_selects hi (by rw [he]; exact hc), he]

/-- Once a command is over the rest of `commandMoves` leaves it so. -/
theorem CommandOver.rests {s t : State} (h : CommandOver s t) (hs : Serving s) (n : Nat) :
    ∃ u, Takes (turns n ++ .retire :: (turns 10 ++ [.retire])) t u ∧ CommandOver s u := by
  obtain ⟨u, htu, hu⟩ := h.retires hs
  obtain ⟨v, huv, hv⟩ := hu.retires hs
  exact ⟨v, (h.polls hs n).trans (htu.trans ((hu.polls hs 10).trans huv)), hv⟩

/-- The command byte `c` is about to be executed (R211). -/
def State.executing (s : State) (c : Byte) : State := { s with main := .execute c, progress := .fresh, lowByte := none }

/-- A selector is over after its one step; the rest of the moves end the access (R217). -/
theorem selector_over {s : State} {c : Byte} (h : Serving s) (he : ∀ s, exec (commandInstr c) s = .next (selectMode c s)) :
    ∃ t, Takes commandMoves (s.executing c) t ∧ CommandOver { s with mode := some c } t := by
  let u : State := { s.executing c with nvBusy := false }
  have retire : Takes [.retire] (s.executing c) u := .retires h.1
  have select : Takes [.dispatch] u { u with mode := some c, main := .endAccess } :=
    .finishes (t := { u with mode := some c }) h rfl rfl fun _ => he _
  have leave : Takes [.dispatch] { u with mode := some c, main := .endAccess }
      { u with mode := some c, busState := .idle, main := .endData } := .leaves h.1 rfl
  have retire' : Takes [.retire] { u with mode := some c, busState := .idle, main := .endData }
      { u with mode := some c, busState := .idle, main := .endData } := .retires h.1
  have release : Takes (turns 2) { u with mode := some c, busState := .idle, main := .endData }
      { u with mode := some c, busState := .idle, sclPull := false, main := .loop } := .releases h rfl
  have hover : CommandOver { s with mode := some c }
      { u with mode := some c, busState := .idle, sclPull := false, main := .loop } := ⟨_, _, _, _, rfl⟩
  obtain ⟨t, rest, ht⟩ := hover.rests h 4
  exact ⟨t, retire.trans <| select.trans <| leave.trans <| retire'.trans <| release.trans rest, ht⟩

/-! ### The corner commands -/

/-- `CornerSet`: the samples, the first write, and the second one after the first has retired (R275). -/
theorem corner_over {s : State} {c : Byte} {j : Joystick} {f : TrimField} (h : Serving s)
    (he : ∀ s, exec (commandInstr c) s = .next (cornerSet j f s)) :
    ∃ t, Takes commandMoves (s.executing c) t ∧ CommandOver s t := by
  let x := s.rawAt (joystickX j)
  let y := s.rawAt (joystickY j)
  let u : State := { s.executing c with nvBusy := false }
  have retire : Takes [.retire] (s.executing c) u := .retires h.1
  have samples : Takes [.dispatch] u { u with progress := .cornerFirst x y } := .goesOn h rfl nofun fun _ => he _
  obtain ⟨nv, n, first⟩ : ∃ nv n, Takes [.dispatch] { u with progress := .cornerFirst x y }
      { u with progress := .cornerSecond y, nv := nv, nvWrites := n, nvBusy := true } :=
    Takes.writes (w := trimWord (joystickX j) f) (v := x) h rfl nofun fun _ => he _
  have retired : Takes [.retire] { u with progress := .cornerSecond y, nv := nv, nvWrites := n, nvBusy := true }
      { u with progress := .cornerSecond y, nv := nv, nvWrites := n } := .retires h.1
  obtain ⟨nv', n', second⟩ : ∃ nv' n', Takes [.dispatch] { u with progress := .cornerSecond y, nv := nv, nvWrites := n }
      { u with nv := nv', nvWrites := n', nvBusy := true, main := .endAccess } :=
    Takes.writesLast (w := trimWord (joystickY j) f) (v := y) h rfl fun _ => he _
  obtain ⟨v, last, hv⟩ := Takes.ends (s := { u with nv := nv', nvWrites := n', nvBusy := true, main := .endAccess })
    h rfl rfl rfl 2
  obtain ⟨t, rest, ht⟩ := CommandOver.rests (s := s) hv h 0
  exact ⟨t, retire.trans <| samples.trans <| first.trans <| retired.trans <| second.trans <| last.trans rest, ht⟩

/-! ### The recompute commands -/

/-- The word `ScaleFactor` returns when `k` free values have been drawn, and how many have been drawn then (R274). -/
def scaleFactorDrawn (mn mx : Word) (k : Nat) : Word × Nat :=
  match scaleFactorValue mn mx with
  | some w => (w, k)
  | none => (Config.freeFactor k, k + 1)

theorem scaleFactor_eq (mn mx : Word) (s : State) :
    scaleFactor mn mx s = ((scaleFactorDrawn mn mx s.draws).1, { s with draws := (scaleFactorDrawn mn mx s.draws).2 }) := by
  unfold scaleFactor scaleFactorDrawn
  cases scaleFactorValue mn mx <;> rfl

section
variable {j : Joystick} {ch : Chan} {mn mx : Word} {lo : Byte} {s : State} (hb : s.nvBusy = false)
include hb

theorem recompute_minLow (hp : s.progress = .recomputeMin ch) (hl : s.lowByte = none) :
    recompute j s = { s with lowByte := some (s.nvByte (wordLo (trimWord ch .min))) } := by
  simp only [recompute, hp, nvRead16_low hb hl]

theorem recompute_minHigh (hp : s.progress = .recomputeMin ch) (hl : s.lowByte = some lo) :
    recompute j s = { s with
      lowByte := none, progress := .recomputeMax ch (Word.ofBytes lo (s.nvByte (wordHi (trimWord ch .min)))) } := by
  simp only [recompute, hp, nvRead16_high hb hl]

theorem recompute_maxLow (hp : s.progress = .recomputeMax ch mn) (hl : s.lowByte = none) :
    recompute j s = { s with lowByte := some (s.nvByte (wordLo (trimWord ch .max))) } := by
  simp only [recompute, hp, nvRead16_low hb hl]

theorem recompute_maxHigh (hp : s.progress = .recomputeMax ch mn) (hl : s.lowByte = some lo) :
    recompute j s = { s with
      lowByte := none, progress := .recomputeFactor ch mn (Word.ofBytes lo (s.nvByte (wordHi (trimWord ch .max)))) } := by
  simp only [recompute, hp, nvRead16_high hb hl]

theorem recompute_factorLow (hp : s.progress = .recomputeFactor ch mn mx) (hl : s.lowByte = none) :
    recompute j s = { s with lowByte := some (s.nvByte (wordLo (trimWord ch .factor))) } := by
  simp only [recompute, hp, nvRead16_low hb hl]

/-- With the stored factor read the channel is done, or its new factor is written next (R276). -/
theorem recompute_factorHigh (hp : s.progress = .recomputeFactor ch mn mx) (hl : s.lowByte = some lo) :
    recompute j s = { s with
      lowByte := none, draws := (scaleFactorDrawn mn mx s.draws).2,
      progress := if (scaleFactorDrawn mn mx s.draws).1 = Word.ofBytes lo (s.nvByte (wordHi (trimWord ch .factor))) then
        recomputeNext j ch else .recomputeWrite ch (scaleFactorDrawn mn mx s.draws).1 } := by
  simp only [recompute, hp, nvRead16_high hb hl, scaleFactor_eq]

theorem recompute_writes {new : Word} (hp : s.progress = .recomputeWrite ch new) :
    recompute j s = { nvCommit (trimWord ch .factor) new s with progress := recomputeNext j ch } := by
  simp only [recompute, hp, nvWrite16_free hb]

end

theorem recomputeNext_x (j : Joystick) : recomputeNext j (joystickX j) = .recomputeMin (joystickY j) := if_pos rfl

theorem recomputeNext_y (j : Joystick) : recomputeNext j (joystickY j) = .fresh := by
  revert j
  decide

section
variable {c : Byte} {j : Joystick} {s : State} (h : Serving s) (hb : s.nvBusy = false)
  (he : ∀ s, exec (commandInstr c) s = .next (recompute j s))
include h hb he

theorem Takes.readsFirst {ch : Chan} (hm : s.main = .execute c) (hp : s.progress = .recomputeMin ch) (hl : s.lowByte = none) :
    ∃ lo, Takes [.dispatch] s { s with lowByte := some lo } :=
  ⟨s.nvByte (wordLo (trimWord ch .min)), .goesOn h hm (by simp [hp]) fun _ => by
    rw [he, recompute_minLow]; exacts [rfl, hb, hp, hl]⟩

/-- The other five byte reads of a channel's fields. -/
theorem Takes.readsFields {ch : Chan} {lo : Byte} (hm : s.main = .execute c) (hp : s.progress = .recomputeMin ch)
    (hl : s.lowByte = some lo) :
    ∃ k p, (p = recomputeNext j ch ∨ ∃ new, p = .recomputeWrite ch new) ∧
      Takes (turns 5) s (afterExecute { s with lowByte := none, draws := k, progress := p }) := by
  let mn := Word.ofBytes lo (s.nvByte (wordHi (trimWord ch .min)))
  let l := s.nvByte (wordLo (trimWord ch .max))
  let mx := Word.ofBytes l (s.nvByte (wordHi (trimWord ch .max)))
  let l' := s.nvByte (wordLo (trimWord ch .factor))
  let old := Word.ofBytes l' (s.nvByte (wordHi (trimWord ch .factor)))
  let new := scaleFactorDrawn mn mx s.draws
  have minHigh : Takes [.dispatch] s { s with lowByte := none, progress := .recomputeMax ch mn } :=
    .goesOn h hm nofun fun _ => by rw [he, recompute_minHigh]; exacts [rfl, hb, hp, hl]
  have maxLow : Takes [.dispatch] { s with lowByte := none, progress := .recomputeMax ch mn }
      { s with lowByte := some l, progress := .recomputeMax ch mn } :=
    .goesOn h hm nofun fun _ => by rw [he, recompute_maxLow]; exacts [rfl, hb, rfl, rfl]
  have maxHigh : Takes [.dispatch] { s with lowByte := some l, progress := .recomputeMax ch mn }
      { s with lowByte := none, progress := .recomputeFactor ch mn mx } :=
    .goesOn h hm nofun fun _ => by rw [he, recompute_maxHigh]; exacts [rfl, hb, rfl, rfl]
  have factorLow : Takes [.dispatch] { s with lowByte := none, progress := .recomputeFactor ch mn mx }
      { s with lowByte := some l', progress := .recomputeFactor ch mn mx } :=
    .goesOn h hm nofun fun _ => by rw [he, recompute_factorLow]; exacts [rfl, hb, rfl, rfl]
  have factorHigh := Takes.executes (s := { s with lowByte := some l', progress := .recomputeFactor ch mn mx })
    (t := { s with
      lowByte := none, draws := new.2,
      progress := if new.1 = old then recomputeNext j ch else .recomputeWrite ch new.1 })
    h hm fun _ => by rw [he, recompute_factorHigh]; exacts [rfl, hb, rfl, rfl]
  refine ⟨_, _, ?_, minHigh.trans <| maxLow.trans <| maxHigh.trans <| factorLow.trans factorHigh⟩
  split
  · exact .inl rfl
  · exact .inr ⟨_, rfl⟩

/-- From the second byte on the Y channel takes five more reads, perhaps a write, and then the access ends. -/
theorem recomputeY_over {lo : Byte} (hm : s.main = .execute c) (hp : s.progress = .recomputeMin (joystickY j))
    (hl : s.lowByte = some lo) (n : Nat) : ∃ t, Takes (turns (n + 9)) s t ∧ CommandOver s t := by
  obtain ⟨k, p, hp | ⟨new, rfl⟩, reads⟩ := Takes.readsFields h hb he hm hp hl
  · obtain rfl : p = .fresh := hp.trans (recomputeNext_y j)
    obtain ⟨t, last, ht⟩ := Takes.ends (s := { s with lowByte := none, draws := k, progress := .fresh, main := .endAccess })
      h rfl rfl rfl (n + 1)
    exact ⟨t, reads.trans last, ht⟩
  · obtain ⟨nv, w, write⟩ : ∃ nv w, Takes [.dispatch]
        { s with lowByte := none, draws := k, progress := .recomputeWrite (joystickY j) new }
        { s with
          lowByte := none, draws := k, nv := nv, nvWrites := w, nvBusy := true, progress := .fresh, main := .endAccess } :=
      Takes.writesLast (w := trimWord (joystickY j) .factor) (v := new) h hm fun _ => by
        rw [he, recompute_writes, recomputeNext_y]; exacts [hb, rfl]
    obtain ⟨t, last, ht⟩ := Takes.ends (s := { s with
      lowByte := none, draws := k, nv := nv, nvWrites := w, nvBusy := true, progress := .fresh, main := .endAccess })
      h rfl rfl rfl n
    exact ⟨t, reads.trans (write.trans last), ht⟩
end

/-- `Recompute`: the fields of the X channel, perhaps a write and its retirement, and the same for the Y channel (R276). -/
theorem recompute_over {s : State} {c : Byte} {j : Joystick} (h : Serving s)
    (he : ∀ s, exec (commandInstr c) s = .next (recompute j s)) :
    ∃ t, Takes commandMoves (s.executing c) t ∧ CommandOver s t := by
  let u : State := { s.executing c with nvBusy := false }
  have retire : Takes [.retire] (s.executing c) u := .retires h.1
  have begins : Takes [.dispatch] u { u with progress := .recomputeMin (joystickX j) } :=
    .goesOn h rfl nofun fun _ => he _
  obtain ⟨lo, first⟩ := Takes.readsFirst (s := { u with progress := .recomputeMin (joystickX j) }) h rfl he rfl rfl rfl
  have quiet : Takes [.retire] { u with progress := .recomputeMin (joystickX j), lowByte := some lo }
      { u with progress := .recomputeMin (joystickX j), lowByte := some lo } := .retires h.1
  obtain ⟨k, p, hp, reads⟩ := Takes.readsFields (s := { u with progress := .recomputeMin (joystickX j), lowByte := some lo })
    h rfl he rfl rfl rfl
  have xFields := retire.trans <| begins.trans <| first.trans <| quiet.trans reads
  rcases hp with hp | ⟨new, rfl⟩
  · obtain rfl : p = .recomputeMin (joystickY j) := hp.trans (recomputeNext_x j)
    obtain ⟨lo', firstY⟩ := Takes.readsFirst (s := { u with draws := k, progress := .recomputeMin (joystickY j) })
      h rfl he rfl rfl rfl
    have quiet' : Takes [.retire] { u with draws := k, progress := .recomputeMin (joystickY j), lowByte := some lo' }
        { u with draws := k, progress := .recomputeMin (joystickY j), lowByte := some lo' } := .retires h.1
    obtain ⟨v, yFields, hv⟩ := recomputeY_over
      (s := { u with draws := k, progress := .recomputeMin (joystickY j), lowByte := some lo' }) h rfl he rfl rfl rfl 1
    obtain ⟨t, last, ht⟩ := CommandOver.retires (s := s) hv h
    exact ⟨t, xFields.trans <| firstY.trans <| quiet'.trans <| yFields.trans last, ht⟩
  · obtain ⟨nv, w, write⟩ : ∃ nv w, Takes [.dispatch] { u with draws := k, progress := .recomputeWrite (joystickX j) new }
        { u with draws := k, nv := nv, nvWrites := w, nvBusy := true, progress := .recomputeMin (joystickY j) } :=
      Takes.writes (w := trimWord (joystickX j) .factor) (v := new) h rfl nofun fun _ => by
        rw [he, recompute_writes, recomputeNext_x]; exacts [rfl, rfl]
    have retired : Takes [.retire]
        { u with draws := k, nv := nv, nvWrites := w, nvBusy := true, progress := .recomputeMin (joystickY j) }
        { u with draws := k, nv := nv, nvWrites := w, progress := .recomputeMin (joystickY j) } := .retires h.1
    obtain ⟨lo', firstY⟩ := Takes.readsFirst
      (s := { u with draws := k, nv := nv, nvWrites := w, progress := .recomputeMin (joystickY j) }) h rfl he rfl rfl rfl
    obtain ⟨v, yFields, hv⟩ := recomputeY_over (s := { u with
      draws := k, nv := nv, nvWrites := w, progress := .recomputeMin (joystickY j), lowByte := some lo' }) h rfl he rfl rfl rfl 0
    obtain ⟨t, last, ht⟩ := CommandOver.retires (s := s) hv h
    exact ⟨t, xFields.trans <| write.trans <| retired.trans <| firstY.trans <| yFields.trans last, ht⟩

/-- Every command comes to its end: a selector is in `MODE` then, a calibration command leaves `MODE` as it was (R211, C3). -/
theorem command_over {s : State} (h : Serving s) (c : Byte) :
    ∃ t, Takes commandMoves (s.executing c) t ∧
      CommandOver (if 32 ≤ c.toNat ∧ c.toNat ≤ 37 then s else { s with mode := some c }) t := by
  rcases commandInstr_kinds c with ⟨hc, he⟩ | ⟨hc, ⟨j, f, he⟩ | ⟨j, he⟩⟩
  · rw [if_neg hc]
    exact selector_over h he
  · rw [if_pos hc]
    exact corner_over h he
  · rw [if_pos hc]
    exact recompute_over h he

end Sys2Proof.Machine
end

section
/-! PROOFS. A whole write access over a free bus, on either backend (R92, R101, R168, R182, R184, R187, R211). -/

namespace Sys2Proof.Machine

/-- The block is idle between transactions and the peer has released both lines. -/
structure AtRest (s : State) : Prop where
  main : s.main = .loop
  busState : s.busState = .idle
  progress : s.progress = .fresh
  lowByte : s.lowByte = none
  xfer : s.xfer = .halted
  startF : s.startF = false
  sdaPull : s.sdaPull = false
  sclPull : s.sclPull = false
  peerSda : s.peerSda = false
  peerScl : s.peerScl = false

theorem Inv.atRest {s : State} (h : Inv s) (hq : quiescent s = true) (hf : busFree s = true) : AtRest s := by
  obtain ⟨hb, hs, hm, _, _⟩ :
      s.busState = .idle ∧ s.startF = false ∧ s.main = .loop ∧ s.nvBusy = false ∧ s.ie = true := by
    simpa [quiescent, and_assoc] using hq
  obtain ⟨hd, hc⟩ : s.peerSda = false ∧ s.peerScl = false := by simpa [busFree] using hf
  have ho : s.main.changingOver = false := by rw [hm]; rfl
  obtain ⟨_, _, hp⟩ := (coherent_resting (by rw [hm]; rfl)).mp h.bus.coherent
  obtain ⟨hsda, hscl⟩ := h.bus.idleReleases hb ho hs
  exact ⟨hm, hb, hp, h.lowNone hm rfl, idle_halted h.bus.coherent hb ho hs, hs, hsda, hscl, hd, hc⟩

/-! ### The start -/

theorem AtRest.sda {s : State} (h : AtRest s) : s.sda = true := by simp [State.sda, h.sdaPull, h.peerSda]

theorem AtRest.scl {s : State} (h : AtRest s) : s.scl = true := by simp [State.scl, h.sclPull, h.peerScl]

theorem AtRest.peerStart_eq {s : State} (h : AtRest s) :
    peerStart s = setPeerScl true (senseStart { s with peerSda := true }) := by
  rw [← setPeerSda_starts h.scl h.sda]
  exact if_pos (by simp [h.peerScl, h.peerSda])

/-- A start finds the block idle: with the shift register the clock is held from its falling edge on (R154, R160). -/
theorem AtRest.start_holds {s : State} (h : AtRest s) (hb : s.cfg.backend ≠ .controller) :
    peerStart s = { s with startF := true, peerSda := true, peerScl := true, sclPull := true } := by
  have plain : State.autonomous { s with peerSda := true } = false := by simp [State.autonomous, hb]
  have sensed : senseStart { s with peerSda := true } = { s with peerSda := true, startF := true } := by
    rw [senseStart, if_neg (by rw [plain]; exact Bool.false_ne_true)]
    exact if_neg (by rw [h.xfer]; exact Bool.false_ne_true)
  rw [h.peerStart_eq, sensed, setPeerScl_falls (by exact h.scl)]
  simp [clockFall, h.xfer, stretchDue]

/-- On the controller a start sets the peripheral to receive the address byte (R163, R168). -/
theorem AtRest.start_listens {s : State} (h : AtRest s) (hb : s.cfg.backend = .controller) :
    peerStart s = { s with
      startF := true, peerSda := true, peerScl := true, stopF := false, bitcnt := 8,
      xfer := .rxData (.addressMatch s.cfg.addrMask) } := by
  have alone : State.autonomous { s with peerSda := true } = true :=
    autonomous_iff.mpr ⟨hb, h.busState, by simp [h.main, MainPoint.changingOver]⟩
  have sensed : senseStart { s with peerSda := true } = loadAddress { s with peerSda := true, startF := true } := if_pos alone
  rw [h.peerStart_eq, sensed, setPeerScl_falls]
  · rw [clockFall_data (ack := .addressMatch s.cfg.addrMask) rfl (show (8 : BitVec 4) ≠ 0 by decide)]
    simp only [loadAddress, h.sdaPull, h.sclPull]
  · simp [State.scl, h.peerScl]

theorem AtRest.starts {s t : State} (h : AtRest s) (hs : Served s)
    (hp : ∀ rest, peerStart { s with sched := rest } = { t with sched := rest }) :
    Takes [.start] s { t with hostSaw := none } :=
  .other hs rfl rfl (by simp [lowersClock, h.peerSda]) h.sclPull fun rest => ⟨rfl, by rw [agentMove, hp]⟩

/-! ### The address byte -/

/-- The block has taken the start and the address byte `b`, which is acknowledged (R182). -/
def addressTaken (s : State) (b : Byte) : State :=
  { s with
    main := .awaitAddress, busState := .addressPhase, xfer := .finished (.byte b), sr := b, bitcnt := 0,
    startF := false, stopF := false, sclPull := true, peerSda := false, peerScl := true, hostSaw := some (.ack true) }

/-- The block is taking the command byte of a write access to `a` (R184). -/
def commandTaken (s : State) (a : BitVec 7) (c : Byte) : State :=
  { s with
    main := .receiveByte, progress := .fresh, busState := .writeTransfer, matched := a, dir := false,
    xfer := .finished (.byte c), sr := c, bitcnt := 0, startF := false, stopF := false, sclPull := true, peerSda := false,
    peerScl := true, hostSaw := some (.ack true) }

section
variable {s : State} {b : Byte} (h : AtRest s) (hs : Served s) (ha : addressMatches s.cfg s.cfg.addrMask (addrField b) = true)
include h hs ha

/-- The shift register's block takes the start and begins to receive in seven turns; so it has taken the address byte (R182). -/
theorem AtRest.takesAddress_plain (hb : s.cfg.backend = .shiftRegister) :
    Takes (.start :: (turns 7 ++ [.wbyte b])) s (addressTaken s b) := by
  let u : State := { s with peerSda := true, peerScl := true, sclPull := true, hostSaw := none }
  have start : Takes [.start] s { u with startF := true } :=
    h.starts (t := { s with startF := true, peerSda := true, peerScl := true, sclPull := true }) hs fun _ =>
      AtRest.start_holds { h with } (by rw [hb]; nofun)
  have poll : Takes [.dispatch] { u with startF := true } { u with startF := true, main := .startSeen } :=
    .inLoop hs h.main fun _ => by simp [awaitAddress, u, h.busState, hb]
  have take : Takes [.dispatch] { u with startF := true, main := .startSeen } { u with startF := false, main := .startTaken } :=
    .turn hs fun _ => rfl
  have enter : Takes [.dispatch] { u with startF := false, main := .startTaken }
      { u with startF := false, busState := .addressPhase, main := .rxEntry .clearStop .address } :=
    .turn hs fun _ => by simp [mainStep, enterAddressPhase, u, hb]
  have receive := Takes.startsReceiving
    (s := { u with startF := false, busState := .addressPhase, main := .rxEntry .clearStop .address }) hs rfl h.sdaPull rfl
  have byte := Receiving.takes (ack := .addressMatch s.cfg.addrMask) (b := b) (s := { u with
      startF := false, stopF := false, bitcnt := 8, sclPull := false, busState := .addressPhase,
      xfer := .rxData (.addressMatch s.cfg.addrMask), main := .awaitAddress })
    ⟨rfl, rfl, rfl, h.sdaPull, .inr ⟨rfl, rfl⟩⟩ hs rfl ha
  exact start.trans <| poll.trans <| take.trans <| enter.trans <| receive.trans byte

/-- The controller's peripheral receives the address byte on its own; three turns later the main context has taken it (R163). -/
theorem AtRest.takesAddress_controller (hb : s.cfg.backend = .controller) :
    ∃ r, Takes (.start :: (turns 7 ++ [.wbyte b])) s r ∧ r.hostSaw = some (.ack true) ∧
      Takes (turns 3) r (addressTaken s b) := by
  let u : State := { s with startF := true, stopF := false, peerScl := true }
  let r : State := { u with
    bitcnt := 0, sr := b, xfer := .finished (.byte b), peerSda := false, sclPull := true, hostSaw := some (.ack true) }
  have alone : s.autonomous = true := autonomous_iff.mpr ⟨hb, h.busState, by rw [h.main]; rfl⟩
  have start : Takes [.start] s
      { u with peerSda := true, bitcnt := 8, xfer := .rxData (.addressMatch s.cfg.addrMask), hostSaw := none } :=
    h.starts (t := { u with peerSda := true, bitcnt := 8, xfer := .rxData (.addressMatch s.cfg.addrMask) }) hs fun _ =>
      AtRest.start_listens { h with } hb
  have polls := Takes.replicate (n := 7) <| Takes.polls
    (s := { u with peerSda := true, bitcnt := 8, xfer := .rxData (.addressMatch s.cfg.addrMask), hostSaw := none })
    hs h.main (.inr hb) (by simp [addressCompleted])
  have byte : Takes [.wbyte b] _ r := Receiving.takes (ack := .addressMatch s.cfg.addrMask) (b := b)
    (s := { u with peerSda := true, bitcnt := 8, xfer := .rxData (.addressMatch s.cfg.addrMask), hostSaw := none })
    ⟨rfl, rfl, h.sclPull, h.sdaPull, .inl alone⟩ hs rfl ha
  have poll : Takes [.dispatch] r { r with main := .startSeen } :=
    .inLoop hs h.main fun rest => awaitAddress_completed (s := { r with sched := rest }) alone rfl
  have take : Takes [.dispatch] { r with main := .startSeen } { r with startF := false, main := .startTaken } :=
    .turn hs fun _ => rfl
  have enter : Takes [.dispatch] { r with startF := false, main := .startTaken } (addressTaken s b) :=
    .turn hs fun _ => by simp [mainStep, enterAddressPhase, r, u, hb, addressTaken]
  exact ⟨r, start.trans (polls.trans byte), rfl, poll.trans (take.trans enter)⟩

/-- After the start, seven turns and the address byte the host has seen its acknowledgement, and on either backend the main
context takes the byte within three turns more. -/
theorem AtRest.takesAddress :
    ∃ r k, k ≤ 3 ∧ Takes (.start :: (turns 7 ++ [.wbyte b])) s r ∧ r.hostSaw = some (.ack true) ∧
      Takes (turns k) r (addressTaken s b) := by
  cases hb : s.cfg.backend with
  | shiftRegister => exact ⟨_, 0, by decide, h.takesAddress_plain hs ha hb, rfl, .nil⟩
  | controller =>
    obtain ⟨r, start, saw, taken⟩ := h.takesAddress_controller hs ha hb
    exact ⟨r, 3, le_rfl, start, saw, taken⟩
  | softwareBitbang =>
    have hok := hs.1
    simp [Params.ok, Params.servesSlave, hb] at hok

/-- From the address byte taken the main context goes on to receive the command byte, and the host sends it (R182, R184). -/
theorem AtRest.takesCommand (hr : rwField b = false) (n : Nat) (c : Byte) :
    Takes (turns 8 ++ (turns n ++ [.wbyte c])) (addressTaken s b) (commandTaken s (addrField b) c) := by
  have enter := Takes.entersWriteAccess (s := addressTaken s b) hs rfl rfl h.progress ha hr
  let u : State := { addressTaken s b with
    matched := addrField b, dir := false, busState := .writeTransfer, progress := .fresh, xfer := .halted }
  have begins : Takes [.dispatch] { u with main := .writeAccess } { u with main := .rxEntry .clearStop .command } :=
    .turn hs fun _ => rfl
  have receive := Takes.startsReceiving (s := { u with main := .rxEntry .clearStop .command }) hs rfl h.sdaPull rfl
  have wait := Takes.replicate (n := n) <| Takes.waitsForByte (ack := .const true) (s := { u with
      stopF := false, bitcnt := 8, sclPull := false, xfer := .rxData (.const true), main := .receiveByte }) hs rfl rfl
  have byte := Receiving.takes (ack := .const true) (b := c) (s := { u with
      stopF := false, bitcnt := 8, sclPull := false, xfer := .rxData (.const true), main := .receiveByte })
    ⟨rfl, rfl, rfl, h.sdaPull, .inr ⟨rfl, rfl⟩⟩ hs rfl rfl
  exact enter.trans <| begins.trans <| receive.trans <| wait.trans byte

end

/-! ### The command -/

/-- The command byte delivered, the command runs to its end (R211). -/
theorem AtRest.executesCommand {s : State} (h : AtRest s) (hs : Served s) (a : BitVec 7) (c : Byte) :
    ∃ u, Takes (.dispatch :: commandMoves) (commandTaken s a c) u ∧ u.busState = .idle ∧ u.main = .loop ∧
      u.sdaPull = false ∧ u.sclPull = false ∧
      u.mode = if 32 ≤ c.toNat ∧ c.toNat ≤ 37 then s.mode else some c := by
  let v : State := { commandTaken s a c with xfer := .halted }
  have deliver : Takes [.dispatch] (commandTaken s a c) (v.executing c) := by
    have e : v.executing c = { commandTaken s a c with xfer := .halted, main := .execute c } := by
      simp only [State.executing, v, commandTaken, h.lowByte]
    rw [e]
    exact .deliversCommand hs rfl rfl rfl
  obtain ⟨u, run, nv, busy, writes, draws, rfl⟩ := command_over (s := v) ⟨hs, rfl, rfl, h.sdaPull⟩ c
  refine ⟨_, deliver.trans run, rfl, rfl, ?_, rfl, ?_⟩
  · split <;> exact h.sdaPull
  · split <;> rfl

/-- Settles O7: the address byte, the command byte, and the command run to its end. -/
theorem writeAccessExecutesCommand : Obligations.WriteAccessExecutesCommand := by
  intro s a c hi hok ha hq hf hm
  have h := hi.atRest hq hf
  have hs : Served s := ⟨hok, ha⟩
  obtain ⟨field, write⟩ : addrField (a ++ 0#1) = a ∧ rwField (a ++ 0#1) = false :=
    Instr.addr.inj (Laws.RoundTrip.addr a false rfl)
  obtain ⟨r, k, hk, start, saw, taken⟩ := h.takesAddress hs (b := a ++ 0#1) (by rw [field]; exact hm)
  have command := taken.trans (h.takesCommand hs (by rw [field]; exact hm) write (3 - k) c)
  have eleven : turns k ++ (turns 8 ++ (turns (3 - k) ++ [.wbyte c])) = turns 11 ++ [.wbyte c] := by
    interval_cases k <;> rfl
  rw [eleven, field] at command
  obtain ⟨u, run, hu⟩ := h.executesCommand hs a c
  exact ⟨_, _, _, start.run, saw, rfl, command.run, rfl, rfl, rfl, rfl, rfl, run.run, hu⟩

end Sys2Proof.Machine
end

section
/-! PROOFS. The steps of CAP: a tick, a comparator change and the two compare events (R121 to R126). -/

namespace Sys2Proof.Machine

/-! ### Which step a move of CAP or DEB is -/

theorem afterCompare_iff {m : Move} : afterCompare m = true ↔ m = .tick ∨ m = .evD ∨ ∃ l, m = .cmp l := by
  cases m <;> simp [afterCompare]

/-- A compare event that is due is the step in place of these moves, the schedule unchanged (R122, R313). -/
theorem step_due {s : State} {m : Move} {ms : List Move} (hok : s.cfg.ok = true) (ha : s.asked = none) (hi : s.ie = true)
    (hd : compareDue s = true) (hs : s.sched = m :: ms) (hm : afterCompare m = true) : step s = .next (compareEvent s) := by
  have hf : compareFirst m s = true := by simp [compareFirst, hm, hi, hd]
  have other : mainsMove m = false := by rcases afterCompare_iff.mp hm with rfl | rfl | ⟨l, rfl⟩ <;> rfl
  exact step_compareEvent hok ha hs other hf

/-- With no compare event due such a move is the step, whole: it neither waits nor moves the lines (R123, R125, R252). -/
theorem step_notDue {s : State} {m : Move} {ms : List Move} (hok : s.cfg.ok = true) (ha : s.asked = none) (hi : s.ie = true)
    (hd : compareDue s = false) (hs : s.sched = m :: ms) (hm : afterCompare m = true) :
    step s = .next (agentMove m { s with sched := ms }) := by
  have hf : compareFirst m s = false := by simp [compareFirst, hd]
  rcases afterCompare_iff.mp hm with rfl | rfl | ⟨l, rfl⟩ <;>
    exact step_agentMove hok ha hs rfl hf (by simp [lowersClock]) (by simp [mustWait, hi])

/-- Settles O42: with nothing due before it the tick is the step. -/
theorem tickAdvancesCounter : Obligations.TickAdvancesCounter := by
  intro s ms hok ha hi hd hs
  rw [step_notDue hok ha hi hd hs rfl]
  exact congrArg Host.Outcome.next (tick_free (s := { s with sched := ms }) hi hd)

/-! ### The compare events -/

theorem evADue_iff {s : State} : evADue s = true ↔ s.phase = .charging ∧ s.cnt = s.oca := by simp [evADue]

theorem evBDue_iff {s : State} : evBDue s = true ↔ s.phase = .discharging ∧ s.cnt = s.ocb := by simp [evBDue]

theorem compareDue_iff {s : State} : compareDue s = true ↔ evADue s = true ∨ evBDue s = true := by simp [compareDue]

/-- In a phase A only `EV_A` can be due, in a phase B only `EV_B` (R124, R126). -/
theorem compareDue_charging {s : State} (h : s.phase = .charging) : compareDue s = evADue s := by
  simp [compareDue, evBDue, h]

theorem compareDue_discharging {s : State} (h : s.phase = .discharging) : compareDue s = evBDue s := by
  simp [compareDue, evADue, h]

/-- Settles O43: the event is due before the tick, and it is `evB`. -/
theorem evBStartsCharging : Obligations.EvBStartsCharging := by
  intro s ms hok ha hi hp hc hs
  have due : evBDue s = true := evBDue_iff.mpr ⟨hp, hc⟩
  rw [step_due hok ha hi (compareDue_iff.mpr (.inr due)) hs rfl, compareEvent_evB hi due]
  rfl

/-- Settles O44: the event is due before the tick, and it is `evA`. -/
theorem evARecordsSample : Obligations.EvARecordsSample := by
  intro s ms hok ha hi hp hc hs
  have due : evADue s = true := evADue_iff.mpr ⟨hp, hc⟩
  rw [step_due hok ha hi (compareDue_iff.mpr (.inl due)) hs rfl, compareEvent_evA hi due]
  rfl

/-! ### The comparator -/

/-- The first rise in a phase A latches the counter (R125). -/
theorem setCmp_latches {s : State} (hr : s.cmp = false) (hp : s.phase = .charging) (hf : s.capf = false) :
    setCmp true s = { s with cmp := true, icr := s.cnt, capf := true } := by
  simp [setCmp, trip, hr, hp, hf]

/-- A change that is no rise, or a rise in a phase B or after a capture, latches nothing (R121, R125). -/
theorem setCmp_ignored {s : State} {level : Bool} (h : ¬(level = true ∧ s.cmp = false ∧ s.phase = .charging ∧ s.capf = false)) :
    setCmp level s = { s with cmp := level } := by
  unfold setCmp trip
  dsimp only
  split
  · next hr =>
    obtain ⟨rfl, hc⟩ : level = true ∧ s.cmp = false := by simpa using hr
    have off : ¬(s.phase = .charging ∧ s.capf = false) := fun e => h ⟨rfl, hc, e⟩
    exact if_neg (by simpa using off)
  · rfl

/-- Settles O45: with nothing due before it the change of the comparator is the step. -/
theorem tripLatchesOnce : Obligations.TripLatchesOnce := by
  intro s level ms hok ha hi hd hs
  rw [step_notDue hok ha hi hd hs rfl]
  refine ⟨?_, fun h => congrArg Host.Outcome.next (setCmp_ignored (s := { s with sched := ms }) h)⟩
  rintro ⟨rfl, hr, hp, hf⟩
  exact congrArg Host.Outcome.next (setCmp_latches (s := { s with sched := ms }) hr hp hf)

/-! ### After a compare event none is due -/

/-- Deadlines counted from the same start are told apart by their lengths: none is a whole turn of the counter (R8). -/
theorem deadline_eq_iff (t0 : Word) {m n : Nat} (hm : m ≤ 0xFFFF) (hn : n ≤ 0xFFFF) :
    t0 + BitVec.ofNat 16 m = t0 + BitVec.ofNat 16 n ↔ m = n := by
  constructor
  · intro h
    bv_omega
  · rintro rfl
    rfl

/-- `EV_A` comes `CAPTURE_LIMIT` ticks into the charge, before the end of the scan period: `EV_B` is not due with it (R122, R128). -/
theorem CapInv.evA_notDue {s : State} (h : CapInv s) (hw : s.cfg.wf = true) (hd : evADue s = true) : compareDue (evA s) = false := by
  obtain ⟨_, hlt, hp, _⟩ := Params.wf_bounds hw
  obtain ⟨hc, hcnt⟩ := evADue_iff.mp hd
  have apart : s.cnt ≠ s.ocb := by
    rw [hcnt, h.compareA hc, h.compareB, Ne, deadline_eq_iff _ (by omega) hp]
    omega
  rw [compareDue_discharging rfl, Bool.eq_false_iff, Ne, evBDue_iff]
  exact fun e => apart e.2

/-- `EV_B` sets its deadlines at least one tick ahead (R124). -/
theorem evB_notDue {s : State} (hw : s.cfg.wf = true) : compareDue (evB s) = false := by
  obtain ⟨hpos, hlt, hp, _⟩ := Params.wf_bounds hw
  have apart : s.cnt + BitVec.ofNat 16 0 ≠ s.cnt + BitVec.ofNat 16 s.cfg.captureLimit := by
    rw [Ne, deadline_eq_iff _ (by omega) (by omega)]
    omega
  rw [compareDue_charging rfl, Bool.eq_false_iff, Ne, evADue_iff]
  exact fun e => apart ((BitVec.add_zero s.cnt).trans e.2)

theorem CapInv.compareEvent_notDue {s : State} (h : CapInv s) (hw : s.cfg.wf = true) (hi : s.ie = true)
    (hd : compareDue s = true) : compareDue (compareEvent s) = false := by
  rcases compareDue_iff.mp hd with ha | hb
  · rw [compareEvent_evA hi ha]
    exact h.evA_notDue hw ha
  · rw [compareEvent_evB hi hb]
    exact evB_notDue hw

theorem Params.wf_of_ok {p : Params} (h : p.ok = true) : p.wf = true := by
  simp only [Params.ok, Bool.and_eq_true] at h
  exact h.1

/-- Settles O46: the event is the step, and its deadlines lie apart. -/
theorem compareEventIsUrgent : Obligations.CompareEventIsUrgent := by
  intro s m ms hok ha hc hi hd hs hm
  exact ⟨compareEvent s, step_due hok ha hi hd hs (afterCompare_iff.mpr hm), rfl, (compareEvent_frame s).sched.trans hs,
    hc.compareEvent_notDue (Params.wf_of_ok hok) hi hd⟩

end Sys2Proof.Machine
end

section
/-! PROOFS. The cycle of a channel: the ticks of CAP alone from the start of a charge to its two deadlines (R128, R129). -/

namespace Sys2Proof.Machine

/-- `s` with the counter `n` ticks on. -/
def ticked (n : Nat) (s : State) : State := { s with cnt := s.cnt + BitVec.ofNat 16 n }

theorem ticked_zero (s : State) : ticked 0 s = s := by simp [ticked]

theorem ticked_ticked (m n : Nat) (s : State) : ticked n (ticked m s) = ticked (m + n) s := by
  simp [ticked, BitVec.ofNat_add, BitVec.add_assoc]

/-- A tick of CAP with no event due is `TICK` alone (R123). -/
theorem capTick_notDue {s : State} (hi : s.ie = true) (hd : compareDue s = false) : capTick s = ticked 1 s := by
  simp only [capTick, hd, Bool.false_eq_true, if_false]
  exact tick_free hi hd

/-- A tick of CAP at the deadline of phase A is `EV_A`, then `TICK` (R122, R126). -/
theorem capTick_evA {s : State} (hi : s.ie = true) (hd : evADue s = true) (hn : compareDue (evA s) = false) :
    capTick s = ticked 1 (evA s) := by
  rw [capTick, if_pos (compareDue_iff.mpr (.inl hd)), compareEvent_evA hi hd]
  exact tick_free hi hn

theorem capTicks_add (m n : Nat) (s : State) : capTicks (m + n) s = capTicks n (capTicks m s) := by
  induction n with
  | zero => rfl
  | succ n ih => exact congrArg capTick ih

/-- As long as no event comes due, CAP only counts. -/
theorem capTicks_notDue {s : State} {n : Nat} (hi : s.ie = true) (hd : ∀ k < n, compareDue (ticked k s) = false) :
    capTicks n s = ticked n s := by
  induction n with
  | zero => exact (ticked_zero s).symm
  | succ n ih =>
    rw [capTicks, ih fun k hk => hd k (by omega), capTick_notDue (by exact hi) (hd n (by omega)), ticked_ticked]

/-! ### From the start of a charge -/

section
variable {s : State} (hw : s.cfg.wf = true) (h : CapInv s) (h0 : s.cnt = s.t0)
include hw h h0

theorem CapInv.evBDue_ticked_evA {n : Nat} (hn : n ≤ 0xFFFF) : evBDue (ticked n (evA s)) = true ↔ n = s.cfg.scanPeriod := by
  obtain ⟨_, _, _, _⟩ := Params.wf_bounds hw
  rw [← deadline_eq_iff s.t0 hn (by omega), ← h.compareB, ← h0]
  exact evBDue_iff.trans (and_iff_right rfl)

theorem CapInv.ticked_evA_notDue {n : Nat} (hn : n < s.cfg.scanPeriod) : compareDue (ticked n (evA s)) = false := by
  obtain ⟨_, _, _, _⟩ := Params.wf_bounds hw
  rw [compareDue_discharging rfl, Bool.eq_false_iff, Ne, h.evBDue_ticked_evA hw h0 (by omega)]
  omega

variable (hp : s.phase = .charging)
include hp

theorem CapInv.evADue_ticked {n : Nat} (hn : n ≤ 0xFFFF) : evADue (ticked n s) = true ↔ n = s.cfg.captureLimit := by
  obtain ⟨_, _, _, _⟩ := Params.wf_bounds hw
  rw [← deadline_eq_iff s.t0 hn (by omega), ← h.compareA hp, ← h0]
  exact evADue_iff.trans (and_iff_right hp)

variable (hi : s.ie = true)
include hi

/-- CAP only counts up to the deadline of phase A. -/
theorem CapInv.capTicks_charging {n : Nat} (hn : n ≤ s.cfg.captureLimit) : capTicks n s = ticked n s := by
  obtain ⟨_, _, _, _⟩ := Params.wf_bounds hw
  refine capTicks_notDue hi fun k hk => ?_
  rw [compareDue_charging (by exact hp), Bool.eq_false_iff, Ne, h.evADue_ticked hw h0 hp (by omega)]
  omega

/-- Then comes `EV_A`, which does not read the counter, and CAP only counts up to the end of the scan period. -/
theorem CapInv.capTicks_discharging {n : Nat} (hlt : s.cfg.captureLimit < n) (hn : n ≤ s.cfg.scanPeriod) :
    capTicks n s = ticked n (evA s) := by
  obtain ⟨_, _, _, _⟩ := Params.wf_bounds hw
  obtain ⟨k, rfl⟩ : ∃ k, n = s.cfg.captureLimit + 1 + k := ⟨n - (s.cfg.captureLimit + 1), by omega⟩
  have event : capTicks (s.cfg.captureLimit + 1) s = ticked (s.cfg.captureLimit + 1) (evA s) := by
    have due := (h.evADue_ticked hw h0 hp (n := s.cfg.captureLimit) (by omega)).mpr rfl
    rw [capTicks, h.capTicks_charging hw h0 hp hi le_rfl, capTick_evA (by exact hi) due
      (h.ticked_evA_notDue hw h0 (by omega)), ← ticked_ticked]
    rfl
  rw [capTicks_add, event, capTicks_notDue (by exact hi), ticked_ticked]
  intro j hj
  rw [ticked_ticked]
  exact h.ticked_evA_notDue hw h0 (by omega)

end

/-- Settles O47: up to the first deadline CAP is the start of the charge ticked on, after it `EV_A` of that ticked on. -/
theorem channelCycleTime : Obligations.ChannelCycleTime := by
  intro s hok h hi hp h0
  have hw := Params.wf_of_ok hok
  obtain ⟨_, _, _, _⟩ := Params.wf_bounds hw
  refine ⟨fun n hn => ?_, fun n hlt hn => ?_⟩
  · rw [h.capTicks_charging hw h0 hp hi hn]
    exact ⟨hp, rfl, h.evADue_ticked hw h0 hp (by omega)⟩
  · rw [h.capTicks_discharging hw h0 hp hi hlt hn]
    exact ⟨rfl, rfl, h.evBDue_ticked_evA hw h0 (by omega)⟩

end Sys2Proof.Machine
end

section
/-! PROOFS. What the main context leaves of CAP and DEB: everything, but that `CONVERT` clears `UPDATED` (R130, R232, R266, R320). -/

namespace Sys2Proof.Machine

/-! ### The steps that leave `UPDATED` alone -/

theorem LineFrame.updated {s t : State} (h : LineFrame s t) : t.updated = s.updated := by rw [← h]; rfl

theorem finishAddress_updated (mask : BitVec 7) (b : Byte) (s : State) : (finishAddress mask b s).updated = s.updated := by
  unfold finishAddress
  dsimp only
  split
  · split <;> rfl
  all_goals rfl

theorem cornerSet_updated (j : Joystick) (f : TrimField) (s : State) : (cornerSet j f s).updated = s.updated := by
  unfold cornerSet
  split
  case h_2 x _ _ => rcases nvWrite16_cases (trimWord (joystickX j) f) x s with e | e <;> simp only [e, nvCommit_updated]
  case h_3 y _ => rcases nvWrite16_cases (trimWord (joystickY j) f) y s with e | e <;> simp only [e, nvCommit_updated]
  all_goals rfl

theorem recompute_updated (j : Joystick) (s : State) : (recompute j s).updated = s.updated := by
  unfold recompute
  split
  case h_2 ch _ => rcases nvRead16_cases (trimWord ch .min) s with ⟨l, e⟩ | ⟨v, e⟩ <;> simp only [e]
  case h_3 ch _ _ => rcases nvRead16_cases (trimWord ch .max) s with ⟨l, e⟩ | ⟨v, e⟩ <;> simp only [e]
  case h_4 ch mn mx _ =>
    rcases nvRead16_cases (trimWord ch .factor) s with ⟨l, e⟩ | ⟨v, e⟩
    · simp only [e]
    · obtain ⟨w, k, drawn⟩ := scaleFactor_cases mn mx { s with lowByte := none }
      simp only [e, drawn]
  case h_5 ch new _ => rcases nvWrite16_cases (trimWord ch .factor) new s with e | e <;> simp only [e, nvCommit_updated]
  all_goals rfl

/-- No decoded byte touches `UPDATED` (R232). -/
theorem exec_updated {i : Instr} {s t : State} (h : exec i s = .next t) : t.updated = s.updated := by
  cases i with
  | addr a r =>
    simp only [exec, execAddr] at h
    split at h <;> cases h
    exact finishAddress_updated _ _ s
  | calA1 => cases h; exact cornerSet_updated _ _ s
  | calB1 => cases h; exact cornerSet_updated _ _ s
  | calA2 => cases h; exact cornerSet_updated _ _ s
  | calB2 => cases h; exact cornerSet_updated _ _ s
  | calF1 => cases h; exact recompute_updated _ s
  | calF2 => cases h; exact recompute_updated _ s
  | _ => cases h; rfl

theorem leaveAccess_updated (s : State) : (leaveAccess s).updated = s.updated := (listen_frame _).updated

theorem afterAddress_updated (s : State) : (afterAddress s).updated = s.updated := by
  unfold afterAddress
  split
  · unfold enterAccess
    split
    · exact (listen_frame _).updated
    · split <;> rfl
  all_goals rfl

theorem afterExecute_updated (s : State) : (afterExecute s).updated = s.updated := by
  unfold afterExecute
  split <;> rfl

theorem executed_updated {i : Instr} {f : State → State} {s t : State} (hf : ∀ u, (f u).updated = u.updated)
    (h : thenNext (exec i s) f = .next t) : t.updated = s.updated := by
  obtain ⟨u, hu, rfl⟩ := thenNext_eq_next h
  exact (hf u).trans (exec_updated hu)

theorem awaitAddress_updated (s : State) : (awaitAddress s).updated = s.updated := by
  unfold awaitAddress
  split
  · rfl
  · split
    · split <;> rfl
    · split <;> rfl
    · rfl

theorem enterAddressPhase_updated (s : State) : (enterAddressPhase s).updated = s.updated := by
  unfold enterAddressPhase
  split <;> rfl

theorem awaitStep_updated {s t : State} (h : awaitStep exec s = .next t) : t.updated = s.updated := by
  unfold awaitStep at h
  split at h
  · exact executed_updated afterAddress_updated h
  · cases h
    exact leaveAccess_updated s
  all_goals cases h; rfl

theorem receiveBegin_updated (s : State) : (receiveBegin s).updated = s.updated := by
  unfold receiveBegin
  split <;> rfl

theorem receiveStep_updated (s : State) : (receiveStep s).updated = s.updated := by
  unfold receiveStep
  split
  · split
    · rfl
    all_goals exact leaveAccess_updated s
  all_goals rfl

theorem sendStep_updated (s : State) : (sendStep s).updated = s.updated := by
  unfold sendStep
  split
  · split
    · rfl
    all_goals exact leaveAccess_updated s
  all_goals rfl

theorem rawByte_updated (k : Nat) (ch : Chan) (s : State) : (rawByte k ch s).2.updated = s.updated := by
  unfold rawByte
  split
  · dsimp only
    split <;> rfl
  · rfl

theorem fetchByte_updated {s t : State} {f : Fetched} (h : fetchByte s = .ok (f, t)) : t.updated = s.updated := by
  unfold fetchByte at h
  split at h
  · split at h <;> cases h
    rfl
  · cases h; rfl
  · cases h; rfl
  · split at h
    · obtain rfl := congrArg Prod.snd (Except.ok.inj h)
      exact rawByte_updated _ _ s
    · cases h
  · cases h; rfl
  · cases h; rfl

theorem fetchStep_updated {s t : State} (h : fetchStep s = .next t) : t.updated = s.updated := by
  unfold fetchStep at h
  split at h
  · cases h; rfl
  · split at h
    · next u hf =>
      cases h
      exact fetchByte_updated (t := u) hf
    · cases h

theorem convertFlag_updated (ch : Chan) (r : Word) (s : State) : (convertFlag ch r s).updated = s.updated := by
  unfold convertFlag
  split <;> rfl

theorem convertMin_updated (ch : Chan) (r : Word) (s : State) : (convertMin ch r s).updated = s.updated := by
  rcases nvRead16_cases (trimWord ch .min) s with ⟨l, e⟩ | ⟨v, e⟩ <;> simp only [convertMin, e]

theorem convertMax_updated (ch : Chan) (r mn : Word) (s : State) : (convertMax ch r mn s).updated = s.updated := by
  rcases nvRead16_cases (trimWord ch .max) s with ⟨l, e⟩ | ⟨v, e⟩ <;> simp only [convertMax, e]

theorem convertFactor_updated (ch : Chan) (r mn : Word) (s : State) : (convertFactor ch r mn s).updated = s.updated := by
  rcases nvRead16_cases (trimWord ch .factor) s with ⟨l, e⟩ | ⟨v, e⟩ <;> simp only [convertFactor, e]

theorem convertOut_updated (ch : Chan) (r mn f : Word) (s : State) : (convertOut ch r mn f s).updated = s.updated := by
  unfold convertOut convertByte
  split <;> rfl

/-! ### The step that clears it -/

theorem convertTake_stale {s : State} (h : s.updated = false) : convertTake s = s := by
  simp only [convertTake, takeSample, critical, h, Bool.false_eq_true, if_false]
  rw [← h]

theorem convertTake_fresh {s : State} (h : s.updated = true) :
    convertTake s = { s with updated := false, main := .convertFlag s.ready (s.rawAt s.ready) } := by
  simp [convertTake, takeSample, critical, h, State.rawAt]

/-- After the first step of `CONVERT` there is no fresh sample (R266). -/
theorem convertTake_updated (s : State) : (convertTake s).updated = false := by
  cases h : s.updated with
  | false => rw [convertTake_stale h, h]
  | true => rw [convertTake_fresh h]

/-- A step of the main context leaves `UPDATED` as it is or clears it (R130, R320). -/
theorem mainStep_updated {choice : LoopChoice} {s t : State} (h : mainStep exec choice s = .next t) :
    t.updated = s.updated ∨ t.updated = false := by
  unfold mainStep at h
  split at h
  · cases choice with
    | dispatch => cases h; exact .inl (awaitAddress_updated s)
    | convert => cases h; exact .inr (convertTake_updated s)
  · cases h; exact .inl rfl
  · cases h; exact .inl (enterAddressPhase_updated s)
  · cases h; exact .inl (rxStep_frame _ _ s).updated
  · exact .inl (awaitStep_updated h)
  · cases h; exact .inl (receiveBegin_updated s)
  · cases h; exact .inl (receiveStep_updated s)
  · exact .inl (executed_updated afterExecute_updated h)
  · cases h; exact .inl rfl
  · cases h; exact .inl (endData_frame s).updated
  · cases h; exact .inl (endClock_frame s).updated
  · cases h; exact .inl rfl
  · exact .inl (fetchStep_updated h)
  · cases h; exact .inl rfl
  · cases h; exact .inl rfl
  · cases h; exact .inl (txStep_frame _ _ s).updated
  · cases h; exact .inl (sendStep_updated s)
  · cases h; exact .inl (convertFlag_updated _ _ s)
  · cases h; exact .inl (convertMin_updated _ _ s)
  · cases h; exact .inl (convertMax_updated _ _ _ s)
  · cases h; exact .inl (convertFactor_updated _ _ _ s)
  · cases h; exact .inl (convertOut_updated _ _ _ _ s)

/-! ### The step of the machine -/

theorem SamplingFrame.capSame {s t : State} (h : SamplingFrame s t) : CapFieldsSame s t := by
  rw [← h]
  constructor <;> rfl

theorem SamplingFrame.debSame {s t : State} (h : SamplingFrame s t) : DebFieldsSame s t := by
  rw [← h]
  constructor <;> rfl

/-- Settles O52: the step is one of the main context, which stays off CAP and DEB and at most clears `UPDATED`. -/
theorem mainContextLeavesCapAndDeb : Obligations.MainContextLeavesCapAndDeb := by
  intro s t m ms hs hm e
  obtain ⟨hok, ha⟩ := served_of_step_next e
  rw [step_of_sched hok ha hs] at e
  obtain ⟨choice, e⟩ : ∃ choice, mainStep exec choice { s with sched := ms } = .next t := by
    rcases hm with rfl | rfl
    · exact ⟨.dispatch, e⟩
    · exact ⟨.convert, e⟩
  have f : SamplingFrame s t := .trans (t := { s with sched := ms }) rfl (mainStep_sampling e)
  refine ⟨f.capSame, f.debSame, fun set => ?_⟩
  have kept : t.updated = s.updated := (mainStep_updated e).resolve_right (by simp [set])
  exact kept ▸ set

end Sys2Proof.Machine
end

section
/-! PROOFS. The peer's moves and the writes that begin a primitive stay on the transport (R159, R166). -/

namespace Sys2Proof.Machine

theorem LineFrame.mainSame {s t : State} (h : LineFrame s t) : MainFieldsSame s t := by
  rw [← h]
  constructor <;> rfl

/-- Settles O18: each of the moves and writes has the frame of the lines, which holds none of the elements named. -/
theorem lineMovesTouchOnlyTransport : Obligations.LineMovesTouchOnlyTransport := by
  intro s t h
  have f : LineFrame s t := by
    rcases h with ⟨m, rfl, hm⟩ | rfl | ⟨b, rfl⟩ | rfl | ⟨p, rfl⟩ | ⟨x, rfl⟩ | rfl
    · rcases hm with ⟨p, rfl⟩ | ⟨p, rfl⟩ | rfl | rfl | ⟨b, rfl⟩ | ⟨a, rfl⟩ | ⟨bits, rfl⟩ | ⟨k, acc, a, rfl⟩
      · exact setPeerSda_frame p s
      · exact setPeerScl_frame p s
      · exact (peerStart_frame s).saw none
      · exact (peerStop_frame s).saw none
      · exact peerWrite_frame _ s
      · exact peerRead_frame _ _ _ s
      · exact peerWrite_frame _ s
      · exact peerRead_frame _ _ _ s
    · exact clearStop_frame s
    · exact loadByte_frame b s
    · exact loadCount_frame s
    · exact setData_frame p s
    · exact releaseClock_frame x s
    · exact listen_frame s
  refine ⟨f.mainSame, f.sampling.capSame, f.sampling.debSame, ?_⟩
  rw [← f]
  exact ⟨rfl, rfl, rfl, rfl, rfl, rfl, rfl, rfl⟩

end Sys2Proof.Machine
end

section
/-! PROOFS. The start and the stop condition (R152, R154, R155), and the primitive they abort (R157, log 12). -/

namespace Sys2Proof.Machine

/-- With the data line released by the block an abort is the primitive's end, and nothing else. -/
theorem abortXfer_released {s : State} (h : s.sdaPull = false) :
    abortXfer s = { s with xfer := if s.xfer.active then .finished .aborted else s.xfer } := by
  unfold abortXfer
  split
  · simp [h]
  · rfl

/-! Who senses a start or a stop: a block in an access, or an idle controller (R154, R155, R168, log 31). -/

theorem senseStart_aborts {s : State} {p : Bool} (h : s.autonomous = false) :
    senseStart { s with peerSda := p } = abortXfer { s with peerSda := p, startF := true } :=
  if_neg (ne_true_of_eq_false h)

theorem senseStart_loads {s : State} {p : Bool} (h : s.autonomous = true) :
    senseStart { s with peerSda := p } = loadAddress { s with peerSda := p, startF := true } :=
  if_pos h

theorem senseStop_aborts {s : State} {p : Bool} (h : s.autonomous = false) :
    senseStop { s with peerSda := p } = abortXfer { s with peerSda := p, stopF := true } :=
  if_neg (ne_true_of_eq_false h)

theorem senseStop_drops {s : State} {p : Bool} (h : s.autonomous = true) (hx : s.xfer.active = true) :
    senseStop { s with peerSda := p } =
      { s with peerSda := p, stopF := true, startF := false, xfer := .halted, sdaPull := false } :=
  (if_pos h).trans (if_pos hx)

theorem senseStop_flags {s : State} {p : Bool} (h : s.autonomous = true) (hx : s.xfer.active = false) :
    senseStop { s with peerSda := p } = { s with peerSda := p, stopF := true } :=
  (if_pos h).trans (if_neg (ne_true_of_eq_false hx))

/-- The data line rising while the clock is high is a stop condition (R152). -/
theorem lineEdges_stop {s : State} (hc : s.scl = true) (hd : s.sda = true) : lineEdges false true s = senseStop s := by
  simp [lineEdges, hc, hd]

theorem setPeerSda_stops {s : State} (hc : s.scl = true) (hd : s.sdaPull = false) (hp : s.peerSda = true) :
    setPeerSda false s = senseStop { s with peerSda := false } := by
  have low : s.sda = false := by simp [State.sda, hp]
  rw [setPeerSda, drivingLines, hc, low]
  exact lineEdges_stop hc (by simp [State.sda, hd])

/-- While the block holds the data line the peer makes no edge on it (R158, R345). -/
theorem setPeerSda_held {s : State} (h : s.sdaPull = true) (p : Bool) : setPeerSda p s = { s with peerSda := p } := by
  have same : s.sda = State.sda { s with peerSda := p } := by simp [State.sda, h]
  rw [setPeerSda, drivingLines, same]
  exact lineEdges_same { s with peerSda := p }

/-! A line is high when nobody pulls it (R27). -/

theorem sdaPull_of_sda {s : State} (h : s.sda = true) : s.sdaPull = false ∧ s.peerSda = false := by
  simpa [State.sda] using h

theorem sclPull_of_scl {s : State} (h : s.scl = true) : s.sclPull = false ∧ s.peerScl = false := by
  simpa [State.scl] using h

/-- A start condition outside the idle controller (R154, R157). -/
theorem setPeerSda_startAborts {s : State} (hc : s.scl = true) (hd : s.sda = true) (ha : s.autonomous = false) :
    setPeerSda true s =
      { s with peerSda := true, startF := true, xfer := if s.xfer.active then .finished .aborted else s.xfer } := by
  rw [setPeerSda_starts hc hd, senseStart_aborts ha]
  exact abortXfer_released (sdaPull_of_sda hd).1

/-- Settles O15: a start outside the idle controller aborts, and there it sets the shifter for the address byte. -/
theorem startConditionIsLatchedAndAborts : Obligations.StartConditionIsLatchedAndAborts := by
  intro s hc hd
  refine ⟨setPeerSda_startAborts hc hd, fun ha => ?_⟩
  obtain ⟨hs, _⟩ := sdaPull_of_sda hd
  obtain ⟨hq, _⟩ := sclPull_of_scl hc
  rw [agentMove, setPeerSda_starts hc hd, senseStart_loads ha]
  simp only [loadAddress, hs, hq]

/-- Settles O16: a stop by who senses it, and no condition on a data line the block holds. -/
theorem stopConditionAborts : Obligations.StopConditionAborts := by
  refine fun s => ⟨fun hc hd hp => ⟨fun ha => ?_, fun ha hx => ?_, fun ha hx => ?_⟩, setPeerSda_held⟩
  all_goals rw [agentMove, setPeerSda_stops hc hd hp]
  · rw [senseStop_aborts ha]
    exact abortXfer_released hd
  · rw [senseStop_drops ha hx, hd]
  · exact senseStop_flags ha hx

end Sys2Proof.Machine
end

section
/-! PROOFS. The main context's turn at the entry of a primitive, write by write (R10, R157, R158, R160). -/

namespace Sys2Proof.Machine

/-- The main context's turn is its next step, the rest of the schedule kept. -/
theorem step_dispatch {s t : State} {ms : List Move} (hok : s.cfg.ok = true) (ha : s.asked = none)
    (hs : s.sched = .dispatch :: ms) (h : mainStep exec .dispatch { s with sched := ms } = .next t) : step s = .next t :=
  (step_of_sched hok ha hs).trans h

theorem mainStep_rxEntry {s : State} {e : RxEntry} {u : RxUse} (hm : s.main = .rxEntry e u) (run : Meaning)
    (choice : LoopChoice) : mainStep run choice s = .next (rxStep e u s) := by
  simp only [mainStep, hm]

theorem mainStep_txEntry {s : State} {e : TxEntry} {b : Byte} (hm : s.main = .txEntry e b) (run : Meaning)
    (choice : LoopChoice) : mainStep run choice s = .next (txStep e b s) := by
  simp only [mainStep, hm]

theorem mainStep_streamByte {s : State} (hm : s.main = .streamByte) (run : Meaning) (choice : LoopChoice) :
    mainStep run choice s = fetchStep s := by
  simp only [mainStep, hm]

theorem mainStep_composeByte {s : State} {f : Fetched} (hm : s.main = .composeByte f) (run : Meaning) (choice : LoopChoice) :
    mainStep run choice s = .next { s with main := .advance (composeByte f s) } := by
  simp only [mainStep, hm]

theorem mainStep_advance {s : State} {b : Byte} (hm : s.main = .advance b) (run : Meaning) (choice : LoopChoice) :
    mainStep run choice s = .next { advance s with main := .txEntry .clearStop b } := by
  simp only [mainStep, hm]

/-! ### Writes of the lines -/

/-- While the clock is low a write of the data line makes no edge that is sensed (R153). -/
theorem setData_low {s : State} (h : s.scl = false) (p : Bool) : setData p s = { s with sdaPull := p } := by
  rw [setData, drivingLines, h]
  exact lineEdges_low (s := { s with sdaPull := p }) h _

theorem setData_quiet {s : State} (h : s.scl = false ∨ s.sdaPull = false) :
    setData false s = { s with sdaPull := false } := by
  rcases h with h | h
  · exact setData_low h false
  · rw [setData_released h, ← h]

/-- A release of a clock that the peer holds, or that the block did not hold, makes no edge (R160). -/
theorem releaseClock_quiet {s : State} (h : s.peerScl = true ∨ s.sclPull = false) (x : Xfer) :
    releaseClock x s = { s with sclPull := false, xfer := x } := by
  rcases h with h | h
  · exact releaseClock_held h x
  · have same : s.scl = State.scl { s with sclPull := false, xfer := x } := by simp [State.scl, h]
    rw [releaseClock, drivingLines, same]
    exact lineEdges_same { s with sclPull := false, xfer := x }

/-- A clock the block alone holds rises with its release (R160). -/
theorem releaseClock_rises {s : State} (hp : s.peerScl = false) (hq : s.sclPull = true) (x : Xfer) :
    releaseClock x s = clockRise { s with sclPull := false, xfer := x } := by
  have low : s.scl = false := by simp [State.scl, hq]
  rw [releaseClock, drivingLines, low]
  exact lineEdges_rise (by simp [State.scl, hp]) _

/-- A sender does nothing at the rising edge of a data bit (R158). -/
theorem releaseClock_txData (s : State) : releaseClock .txData s = { s with sclPull := false, xfer := .txData } := by
  rcases releaseClock_cases .txData s with e | e <;> exact e

/-- A receiver that finds a condition sensed ends `Aborted` at the rising edge, the bit sampled (R157, log 12). -/
theorem clockRise_aborts {s : State} {ack : AckPolicy} (hx : s.xfer = .rxData ack) (hn : s.bitcnt ≠ 0)
    (ha : s.autonomous = false) (hs : s.startF = true ∨ s.stopF = true) :
    clockRise s = { s with
      sr := shiftIn s.sr s.sda, bitcnt := s.bitcnt - 1, xfer := .finished .aborted, sdaPull := false } := by
  have plain : State.autonomous { s with sr := shiftIn s.sr s.sda, bitcnt := s.bitcnt - 1 } = false := ha
  simp only [clockRise, hx, if_neg hn]
  rw [← hx, abortIfSensed, plain, if_pos (by simpa using hs), abortXfer, if_pos (by rw [hx]; rfl)]

theorem RxUse.ack_eq (p : Params) (u : RxUse) :
    u.ack p = if u = .address then .addressMatch p.addrMask else .const true := by
  cases u <;> rfl

theorem RxUse.waiting_eq (u : RxUse) : u.waiting = if u = .address then .awaitAddress else .receiveByte := by
  cases u <;> rfl

/-! ### The entry of `RxByte` -/

/-- The release of a clock the block alone holds samples the first bit (R157, R160). -/
theorem releaseClock_samples {s : State} (hp : s.peerScl = false) (hq : s.sclPull = true) (hn : s.bitcnt = 8)
    (hd : s.sdaPull = false) (hf : s.startF = false) (hg : s.stopF = false) (ack : AckPolicy) :
    releaseClock (.rxData ack) s =
      { s with bitcnt := 7, sclPull := false, xfer := .rxData ack, sr := shiftIn s.sr (!s.peerSda) } := by
  have eight : s.bitcnt ≠ 0 := by rw [hn]; decide
  have rise := clockRise_data (s := { s with sclPull := false, xfer := .rxData ack }) rfl eight (.inr ⟨hf, hg⟩)
  rw [releaseClock_rises hp hq, rise]
  simp [State.sda, hd, hn]

/-- There a condition sensed since `STOP_F` was cleared ends the primitive (R157). -/
theorem releaseClock_aborts {s : State} (hp : s.peerScl = false) (hq : s.sclPull = true) (hn : s.bitcnt = 8)
    (hd : s.sdaPull = false) (hf : s.startF = true ∨ s.stopF = true) (hb : s.busState ≠ .idle) (ack : AckPolicy) :
    releaseClock (.rxData ack) s =
      { s with bitcnt := 7, sclPull := false, xfer := .finished .aborted, sr := shiftIn s.sr (!s.peerSda) } := by
  have eight : s.bitcnt ≠ 0 := by rw [hn]; decide
  have rise := clockRise_aborts (s := { s with sclPull := false, xfer := .rxData ack }) rfl eight
    (by simp [State.autonomous, hb]) hf
  rw [releaseClock_rises hp hq, rise]
  simp [State.sda, hd, hn]

/-- Settles O10: one write in a step; the last raises the clock only when the block alone holds it. -/
theorem rxByteEntryLoadsTheShifter : Obligations.RxByteEntryLoadsTheShifter := by
  intro s ms u hok ha hs
  dsimp only
  rw [← u.ack_eq s.cfg, ← u.waiting_eq]
  have enters {e : RxEntry} {t : State} (hm : s.main = .rxEntry e u) (h : rxStep e u { s with sched := ms } = t) :
      step s = .next t :=
    step_dispatch hok ha hs ((mainStep_rxEntry (s := { s with sched := ms }) hm _ _).trans (congrArg _ h))
  refine ⟨fun hm => enters hm rfl, fun hm hd => enters hm ?_, fun hm => enters hm rfl, fun hm hp => enters hm ?_,
    fun hm hp hq hn hd => ⟨fun hf hg => enters hm ?_, fun hf hb => enters hm ?_⟩⟩
  · rw [rxStep, setData_quiet (s := { s with sched := ms }) hd]
  · rw [rxStep, releaseClock_quiet (s := { s with sched := ms }) hp]
  · rw [rxStep, releaseClock_samples (s := { s with sched := ms }) hp hq hn hd hf hg]
    rfl
  · rw [rxStep, releaseClock_aborts (s := { s with sched := ms }) hp hq hn hd hf hb]
    rfl

/-! ### The byte of a read access -/

theorem sourceOf_trimTable (m : Option Byte) : sourceOf m = .trimTable ↔ m = some 129#8 := by
  cases m with
  | none => simp [sourceOf]
  | some c =>
    simp only [Option.some.injEq]
    revert c
    decide

/-- `StreamByte` waits for a write in flight, and for nothing else (R64, R230). -/
theorem streamWaits_iff {s : State} : streamWaits s = true ↔ s.mode = some 129#8 ∧ s.nvBusy = true := by
  simp [streamWaits, nvRead8, sourceOf_trimTable]

/-- In a read transfer whose source can be read the fetch is the step (R185, R213). -/
theorem fetchStep_reads {s t : State} {f : Fetched} (hb : s.busState = .readTransfer)
    (hw : s.nvBusy = false ∨ s.mode ≠ some 129#8) (h : fetchByte s = .ok (f, t)) :
    fetchStep s = .next { t with main := .composeByte f } := by
  have ready : streamWaits s = false := by
    rw [← Bool.not_eq_true, streamWaits_iff]
    rintro ⟨hm, hn⟩
    rcases hw with hw | hw
    · simp [hn] at hw
    · exact hw hm
  simp [fetchStep, hb, ready, h]

/-- The first bit is on the line while the clock is low (R158, log 13). -/
theorem txStep_setBit {s : State} (h : s.scl = false) (b : Byte) :
    txStep .setBit b s = { s with sdaPull := !s.sr.getLsbD 7, main := .txEntry .releaseClock b } := by
  rw [txStep, h, setData_low h]
  rfl

theorem txStep_releaseClock (s : State) (b : Byte) :
    txStep .releaseClock b s = { s with sclPull := false, xfer := .txData, main := .sendByte } := by
  rw [txStep, releaseClock_txData]

/-- Settles O22: from the read of the source to the release of the clock, step by step. -/
theorem fetchedByteIsOffered : Obligations.FetchedByteIsOffered := by
  intro s ms b hok ha hs
  have goes {t : State} (h : mainStep exec .dispatch { s with sched := ms } = .next t) : step s = .next t :=
    step_dispatch hok ha hs h
  have offers {e : TxEntry} {t : State} (hm : s.main = .txEntry e b) (h : txStep e b { s with sched := ms } = t) :
      step s = .next t :=
    goes ((mainStep_txEntry (s := { s with sched := ms }) hm _ _).trans (congrArg _ h))
  have composes {f : Fetched} (hm : s.main = .composeByte f) :
      step s = .next { s with sched := ms, main := .advance (composeByte f { s with sched := ms }) } :=
    goes (mainStep_composeByte (s := { s with sched := ms }) hm _ _)
  refine ⟨fun hm hn hk => goes ?_, fun f u hm hb hw hf => goes ?_, composes, fun d => composes, composes,
    fun hm => goes ?_, fun hm => offers hm rfl, fun hm => offers hm rfl, fun hm => offers hm rfl,
    fun hm hc => offers hm ?_, fun hm => offers hm ?_⟩
  · exact (mainStep_streamByte (s := { s with sched := ms }) hm _ _).trans
      (fetchStep_waits hn ((sourceOf_trimTable s.mode).mpr hk))
  · exact (mainStep_streamByte (s := { s with sched := ms }) hm _ _).trans (fetchStep_reads hb hw hf)
  · exact mainStep_advance (s := { s with sched := ms }) hm _ _
  · exact txStep_setBit (s := { s with sched := ms }) hc b
  · exact txStep_releaseClock { s with sched := ms } b

end Sys2Proof.Machine
end

section
/-! PROOFS. A byte the host sends: an address that is not the block's, and a byte the block cuts short (R157, R160, R168,
R187). -/

namespace Sys2Proof.Machine

/-- All the bits of a byte lead to the acknowledgement slot, the receiver's operand on the line. By induction on the bits to
come. -/
theorem Receiving.reachesSlot {s : State} {ack : AckPolicy} {bit : Bool} {bits : List Bool} (h : Receiving s ack)
    (hn : s.bitcnt.toNat = bits.length + 1) :
    ∃ d, peerWrite (bit :: bits) s = peerWrite [] { s with
      sr := (bit :: bits).foldl shiftIn s.sr, bitcnt := 1, xfer := .rxAck, peerSda := d,
      sdaPull := ack.eval s.cfg ((bit :: bits).foldl shiftIn s.sr) } := by
  induction bits generalizing s bit with
  | nil =>
    refine ⟨!bit, ?_⟩
    rw [peerWrite_bit h.sclPull, h.answers (BitVec.eq_of_toNat_eq hn)]
    rfl
  | cons b bs ih =>
    have h0 : s.bitcnt ≠ 0 := fun e => by rw [e] at hn; cases hn
    have h1 : s.bitcnt ≠ 1 := fun e => by rw [e] at hn; cases hn
    have shift := h.shifts h0 h1 bit
    have next : Receiving (peerPulse bit s).2 ack := by
      rw [shift]
      exact ⟨h.xfer, h.peerScl, h.sclPull, h.sdaPull, h.undisturbed⟩
    have count : (s.bitcnt - 1).toNat = bs.length + 1 := by
      rw [List.length_cons] at hn
      bv_omega
    obtain ⟨d, hw⟩ := ih (bit := b) next (by rw [shift]; exact count)
    rw [shift] at hw
    exact ⟨d, by rw [peerWrite_bit h.sclPull, shift, hw]; rfl⟩

/-- An idle controller leaves no completion and no start of an address that is not the block's (R168, log 31). -/
theorem clockFall_drops {s : State} (hx : s.xfer = .rxAck) (hn : s.bitcnt = 0) (ha : s.autonomous = true)
    (hd : s.sdaPull = false) : clockFall s = { s with startF := false, xfer := .halted } := by
  simp [clockFall, hx, hn, ha, hd]

theorem peerWrite_slot_unmatched {s : State} (hx : s.xfer = .rxAck) (hn : s.bitcnt = 1) (hp : s.peerScl = true)
    (hc : s.sclPull = false) (ha : s.autonomous = true) (hd : s.sdaPull = false) :
    peerWrite [] s = ({ s with
      bitcnt := 0, xfer := .halted, startF := false, peerSda := false, hostSaw := some (.ack false) }, none) := by
  have rise : clockRise { s with peerSda := !true, peerScl := false } =
      { s with peerSda := false, peerScl := false, bitcnt := 0 } := by
    simp [clockRise, hx, hn]
  have fall := clockFall_drops (s := { s with peerSda := false, peerScl := true, bitcnt := 0 }) hx rfl ha hd
  have level : State.sda { s with peerSda := false, peerScl := false, bitcnt := 0 } = true := by simp [State.sda, hd]
  have pulse : peerPulse true s = (true, { s with peerSda := false, bitcnt := 0, startF := false, xfer := .halted }) := by
    rw [peerPulse_low hp hc, rise, fall, level, ← hp]
  simp only [peerWrite, hc, pulse, Bool.not_true, Bool.false_eq_true, if_false]

theorem Receiving.dropsAddress {s : State} {ack : AckPolicy} (h : Receiving s ack) (hn : s.bitcnt = 8) (b : Byte)
    (ha : s.autonomous = true) (hm : ack.eval s.cfg b = false) :
    peerWrite (msbFirst b) s = ({ s with
      sr := b, bitcnt := 0, xfer := .halted, startF := false, peerSda := false, hostSaw := some (.ack false) }, none) := by
  obtain ⟨d, slot⟩ := h.reachesSlot (bit := b.getLsbD 7) (bits := (msbFirst b).tail) (by rw [hn]; rfl)
  have hb : b.getLsbD 7 :: (msbFirst b).tail = msbFirst b := rfl
  rw [hb, foldl_shiftIn_msbFirst, hm, ← h.sdaPull] at slot
  rw [slot]
  exact peerWrite_slot_unmatched (s := { s with sr := b, bitcnt := 1, xfer := .rxAck, peerSda := d }) rfl rfl h.peerScl
    h.sclPull ha h.sdaPull

/-- On a clock the block holds the host makes no pulse: all its bits are left (R160, R364, log 15). -/
theorem peerWrite_held {s : State} (h : s.sclPull = true) (bits : List Bool) : peerWrite bits s = (s, some (.wrest bits)) := by
  cases bits <;> simp [peerWrite, h]

/-- A primitive that has ended with a start latched holds the clock from its falling edge on (R160, log 11). -/
theorem clockFall_holds {s : State} {r : Status} (hx : s.xfer = .finished r) (hf : s.startF = true) :
    clockFall s = { s with sclPull := true } := by
  have due : stretchDue s = true := by cases r <;> simp [stretchDue, hx, hf]
  simp [clockFall, hx, due]

/-- A start sensed before the primitive began ends it at its first bit, and the block holds the clock (R157, R160, log 12). -/
theorem peerPulse_aborts {s : State} {ack : AckPolicy} (hx : s.xfer = .rxData ack) (hn : s.bitcnt ≠ 0)
    (hp : s.peerScl = true) (hc : s.sclPull = false) (hd : s.sdaPull = false) (ha : s.autonomous = false)
    (hf : s.startF = true) (bit : Bool) :
    (peerPulse bit s).2 = { s with
      sr := shiftIn s.sr bit, bitcnt := s.bitcnt - 1, xfer := .finished .aborted, peerSda := !bit, sclPull := true } := by
  have rise := clockRise_aborts (s := { s with peerSda := !bit, peerScl := false }) hx hn ha (.inl hf)
  have level : State.sda { s with peerSda := !bit, peerScl := false } = bit := by simp [State.sda, hd]
  have fall := clockFall_holds (s := { s with
    sr := shiftIn s.sr bit, bitcnt := s.bitcnt - 1, xfer := .finished .aborted, sdaPull := false, peerSda := !bit,
    peerScl := true }) rfl hf
  rw [peerPulse_low hp hc, rise, level, fall]
  simp only [hp, hd]

/-- So the host stops after that bit (R160, R364, log 15). -/
theorem peerWrite_cut {s : State} {ack : AckPolicy} (hx : s.xfer = .rxData ack) (hn : s.bitcnt = 8)
    (hp : s.peerScl = true) (hc : s.sclPull = false) (hd : s.sdaPull = false) (ha : s.autonomous = false)
    (hf : s.startF = true) (b : Byte) :
    peerWrite (msbFirst b) s = ({ s with
      sr := shiftIn s.sr (b.getLsbD 7), bitcnt := 7, xfer := .finished .aborted, peerSda := !b.getLsbD 7, sclPull := true },
      some (.wrest (msbFirst b).tail)) := by
  have pulse := peerPulse_aborts hx (by rw [hn]; decide) hp hc hd ha hf (b.getLsbD 7)
  rw [msbFirst, peerWrite_bit hc, pulse, hn]
  exact peerWrite_held rfl _

/-- Settles O12: the whole byte with its acknowledgement, the address that does not match, and the byte cut at its first bit. -/
theorem hostByteIsReceivedAndAcknowledged : Obligations.HostByteIsReceivedAndAcknowledged := by
  intro s b ack hx hn hp hc hd
  have whole {r : State} (h : peerWrite (msbFirst b) s = (r, none)) :
      moveRest (.wbyte b) s = none ∧ agentMove (.wbyte b) s = r := ⟨congrArg Prod.snd h, congrArg Prod.fst h⟩
  refine ⟨fun ha hf hg => whole ?_, fun ha hm => whole ?_, fun ha hm => whole ?_, fun ha hf => ?_⟩
  · exact Receiving.takesByte ⟨hx, hp, hc, hd, .inr ⟨hf, hg⟩⟩ hn b (.inl ha)
  · have taken := Receiving.takesByte ⟨hx, hp, hc, hd, .inl ha⟩ hn b (.inr hm)
    rwa [hm] at taken
  · exact Receiving.dropsAddress ⟨hx, hp, hc, hd, .inl ha⟩ hn b ha hm
  · have cut := peerWrite_cut hx hn hp hc hd ha hf b
    refine ⟨congrArg Prod.snd cut, congrArg Prod.fst cut, fun ms hok hk hs => ?_⟩
    have cut' := peerWrite_cut (s := { s with sched := ms }) hx hn hp hc hd ha hf b
    rw [step_agentMove hok hk hs rfl rfl (by simp [lowersClock, hp]) hc]
    simp only [agentMove, moveRest, cut, cut']
    rfl

end Sys2Proof.Machine
end

section
/-! PROOFS. A byte the host reads from a sender at its first bit (R158, R160, R187). -/

namespace Sys2Proof.Machine

/-- `TxByte` runs, its bit on the line, the peer alone holds the clock, and no condition is sensed (R158). -/
structure Sending (s : State) : Prop where
  xfer : s.xfer = .txData
  peerScl : s.peerScl = true
  sclPull : s.sclPull = false
  offered : s.sdaPull = !s.sr.getLsbD 7
  startF : s.startF = false
  stopF : s.stopF = false

/-- A pulse in which the host lets the data line go shows it the bit the sender offers; the sender moves on the falling
edge alone (R158). -/
theorem Sending.pulse {s : State} (h : Sending s) :
    peerPulse true s = (s.sr.getLsbD 7, clockFall { s with peerSda := false }) := by
  have rise : clockRise { s with peerSda := !true, peerScl := false } = { s with peerSda := false, peerScl := false } := by
    simp [clockRise, h.xfer]
  have level : State.sda { s with peerSda := false, peerScl := false } = s.sr.getLsbD 7 := by simp [State.sda, h.offered]
  rw [peerPulse_low h.peerScl h.sclPull, rise, level, ← h.peerScl]

/-- A bit that is not the last is followed by the next (R158). -/
theorem Sending.shifts {s : State} (h : Sending s) (hn : 1 < s.bitcnt.toNat) :
    peerPulse true s = (s.sr.getLsbD 7, { s with
      peerSda := false, sr := shiftIn s.sr false, bitcnt := s.bitcnt - 1, sdaPull := !(shiftIn s.sr false).getLsbD 7 }) := by
  have quiet := abortIfSensed_undisturbed (s := { s with
    peerSda := false, sr := shiftIn s.sr false, bitcnt := s.bitcnt - 1, sdaPull := !(shiftIn s.sr false).getLsbD 7 })
    (.inr ⟨h.startF, h.stopF⟩)
  rw [h.pulse]
  simp only [clockFall, h.xfer, if_pos hn]
  rw [← h.xfer, quiet]

/-- The last bit is followed by the acknowledgement slot, the data line released (R158). -/
theorem Sending.ends {s : State} (h : Sending s) (hn : s.bitcnt = 1) :
    peerPulse true s =
      (s.sr.getLsbD 7, { s with peerSda := false, sdaPull := false, bitcnt := 1, xfer := .txAck }) := by
  have last : ¬1 < s.bitcnt.toNat := by rw [hn]; decide
  rw [h.pulse]
  simp only [clockFall, h.xfer, if_neg last]

/-- In the acknowledgement slot the host's answer ends the primitive, and an ACK is followed by a stretch (R158, R160,
log 32). -/
theorem peerRead_answer {s : State} (hx : s.xfer = .txAck) (hp : s.peerScl = true) (hc : s.sclPull = false)
    (hd : s.sdaPull = false) (acc : Byte) (ack : Bool) :
    peerRead 0 acc ack s = ({ s with
      bitcnt := 0, xfer := .finished (if ack then .acked else .nacked), peerSda := false, sclPull := ack,
      hostSaw := some (.byte acc) }, none) := by
  have rise : clockRise { s with peerSda := !!ack, peerScl := false } =
      { s with peerSda := ack, peerScl := false, bitcnt := 0, xfer := .txSampled ack } := by
    simp [clockRise, hx, State.sda, hd]
  have pulse : (peerPulse (!ack) s).2 =
      { s with peerSda := ack, bitcnt := 0, sclPull := ack, xfer := .finished (if ack then .acked else .nacked) } := by
    rw [peerPulse_low hp hc, rise]
    simp only [clockFall, hp]
  have low : State.scl { s with
      peerSda := ack, bitcnt := 0, sclPull := ack, xfer := .finished (if ack then .acked else .nacked) } = false := by
    simp [State.scl, hp]
  have release := lineEdges_low (s := { s with
      peerSda := false, bitcnt := 0, sclPull := ack, xfer := .finished (if ack then .acked else .nacked) }) low
  simp only [peerRead, hc, pulse, setPeerSda, drivingLines, low, release, Bool.false_eq_true, if_false]

theorem peerRead_bit {s : State} (hc : s.sclPull = false) (left : Nat) (acc : Byte) (ack : Bool) :
    peerRead (left + 1) acc ack s = peerRead left (shiftIn acc (peerPulse true s).1) ack (peerPulse true s).2 := by
  simp only [peerRead, hc]
  rfl

theorem shiftIn_false (sr : Byte) : shiftIn sr false = sr <<< 1 := by
  revert sr
  decide

/-- A shift drops the first of a byte's bits (R69). -/
theorem msbFirst_shiftLeft (b : Byte) : msbFirst (b <<< 1) = (msbFirst b).tail ++ [false] := by
  simp [msbFirst]

/-- The host reads the bits from the sender's next on, as many as the sender has left, and answers. By induction on their
number. -/
theorem Sending.reads {s : State} {n : Nat} (h : Sending s) (hn : s.bitcnt.toNat = n + 1) (h8 : n < 8) (acc : Byte)
    (ack : Bool) :
    peerRead (n + 1) acc ack s = ({ s with
      sr := s.sr <<< n, bitcnt := 0, xfer := .finished (if ack then .acked else .nacked), sdaPull := false,
      peerSda := false, sclPull := ack,
      hostSaw := some (.byte (((msbFirst s.sr).take (n + 1)).foldl shiftIn acc)) }, none) := by
  induction n generalizing s acc with
  | zero =>
    have answer := peerRead_answer (s := { s with peerSda := false, sdaPull := false, bitcnt := 1, xfer := .txAck }) rfl
      h.peerScl h.sclPull rfl (shiftIn acc (s.sr.getLsbD 7)) ack
    rw [peerRead_bit h.sclPull, h.ends (BitVec.eq_of_toNat_eq hn), answer]
    simp [msbFirst]
  | succ n ih =>
    have shift := h.shifts (by omega)
    have next : Sending (peerPulse true s).2 := by
      rw [shift]
      exact ⟨h.xfer, h.peerScl, h.sclPull, rfl, h.startF, h.stopF⟩
    have count : (s.bitcnt - 1).toNat = n + 1 := by bv_omega
    have rest := ih next (by rw [shift]; exact count) (by omega) (shiftIn acc (s.sr.getLsbD 7))
    have bits : (msbFirst (s.sr <<< 1)).take (n + 1) = (msbFirst s.sr).tail.take (n + 1) := by
      rw [msbFirst_shiftLeft, List.take_append_of_le_length]
      simp only [msbFirst, List.tail_cons, List.length_cons, List.length_nil]
      omega
    rw [peerRead_bit h.sclPull]
    rw [shift] at rest ⊢
    rw [rest]
    simp only [shiftIn_false, bits, ← BitVec.shiftLeft_add, Nat.add_comm 1 n]
    rfl

/-- Settles O13: the eight bits are the byte, and the answer follows. -/
theorem hostReadsTheByteSent : Obligations.HostReadsTheByteSent := by
  rintro s x ack hx hn rfl hd hf hg hp hc
  have read := Sending.reads (n := 7) ⟨hx, hp, hc, hd, hf, hg⟩ (by rw [hn]; rfl) (by decide) 0 ack
  have whole : (msbFirst s.sr).take (7 + 1) = msbFirst s.sr := rfl
  rw [whole, foldl_shiftIn_msbFirst] at read
  exact ⟨congrArg Prod.snd read, congrArg Prod.fst read⟩

end Sys2Proof.Machine
end

section
/-! PROOFS. A repeated start in the middle of a byte: the primitive aborted, the access left, the start's address byte received
(C8, R154, R181, R184, R185). -/

namespace Sys2Proof.Machine

/-- The peer's start in the middle of a byte ends the primitive (R154, R157). -/
theorem Takes.startAborts {s : State} (hs : Served s) (hc : s.scl = true) (hd : s.sda = true) (hb : s.busState ≠ .idle)
    (hx : s.xfer.active = true) :
    Takes [.peerSda true] s { s with peerSda := true, startF := true, xfer := .finished .aborted } := by
  have held : mustWait (.peerSda true) s = false := by simp [mustWait, (sclPull_of_scl hc).1]
  refine .other hs rfl rfl (by simp [lowersClock]) held fun rest => ⟨rfl, ?_⟩
  have aborts := setPeerSda_startAborts (s := { s with sched := rest }) hc hd (by simp [State.autonomous, hb])
  rwa [if_pos hx] at aborts

/-- The falling clock after it is held (R160, log 11). -/
theorem Takes.clockHeld {s : State} {r : Status} (hs : Served s) (hc : s.scl = true) (hx : s.xfer = .finished r)
    (hf : s.startF = true) : Takes [.peerScl true] s { s with peerScl := true, sclPull := true } := by
  have held : mustWait (.peerScl true) s = false := by simp [mustWait, (sclPull_of_scl hc).1]
  refine .other hs rfl rfl (by simp [lowersClock]) held fun rest => ⟨rfl, ?_⟩
  rw [agentMove, setPeerScl_falls (s := { s with sched := rest }) hc]
  exact clockFall_holds (s := { s with sched := rest, peerScl := true }) hx hf

/-! ### The access is left -/

/-- An aborted byte ends the access on either backend (R168, R184, R185). -/
theorem driverResult_aborted (s : State) : driverResult s .aborted = .aborted := by
  unfold driverResult
  cases s.cfg.backend <;> rfl

theorem mainStep_aborted {s : State} (hm : s.main = .receiveByte ∨ s.main = .sendByte) (hx : s.xfer = .finished .aborted)
    (run : Meaning) (choice : LoopChoice) : mainStep run choice s = .next (leaveAccess s) := by
  rcases hm with hm | hm
  · simp only [mainStep, hm, receiveStep, hx, driverResult_aborted]
  · simp only [mainStep, hm, sendStep, hx, driverResult_aborted]

/-- Off the controller the block is then at rest, a start still latched (R190). -/
theorem leaveAccess_rests {s : State} (hb : s.cfg.backend ≠ .controller) :
    leaveAccess s = { s with busState := .idle, xfer := .halted, main := .loop } := by
  simp [leaveAccess, listen, State.autonomous, hb]

/-- An idle controller goes on to the address byte of a start that is latched, with no edge while the peer holds the
clock (log 31). -/
theorem listen_loads {s : State} (ha : s.autonomous = true) (hf : s.startF = true) (hx : s.xfer = .halted)
    (hp : s.peerScl = true) : listen s = loadAddress s := by
  have low : s.scl = false := by simp [State.scl, hp]
  simp only [listen, ha, hf, hx, decide_true, Bool.and_self, if_true, drivingLines, low]
  exact lineEdges_low (by simp [State.scl, hp]) _

/-- So does the controller that leaves an access (R168). -/
theorem leaveAccess_listens {s : State} (hb : s.cfg.backend = .controller) (hf : s.startF = true) (hp : s.peerScl = true) :
    leaveAccess s = loadAddress { s with busState := .idle, main := .loop } :=
  listen_loads (s := { s with busState := .idle, xfer := .halted, main := .loop }) (autonomous_iff.mpr ⟨hb, rfl, rfl⟩) hf rfl
    hp

theorem Takes.leavesAccess {s t : State} (hs : Served s) (hm : s.main = .receiveByte ∨ s.main = .sendByte)
    (hx : s.xfer = .finished .aborted) (h : ∀ rest, leaveAccess { s with sched := rest } = { t with sched := rest }) :
    Takes [.dispatch] s t :=
  .turn hs fun rest => (mainStep_aborted (s := { s with sched := rest }) hm hx _ _).trans (congrArg _ (h rest))

/-! ### The start is served -/

/-- The shift register's block takes a start that is latched, up to the entry of `RxByte` (R182). -/
theorem Takes.takesStart {s : State} (hs : Served s) (hb : s.cfg.backend = .shiftRegister) (hm : s.main = .loop)
    (hi : s.busState = .idle) (hf : s.startF = true) :
    Takes (turns 3) s { s with startF := false, busState := .addressPhase, main := .rxEntry .clearStop .address } := by
  have poll : Takes [.dispatch] s { s with main := .startSeen } :=
    .inLoop hs hm fun _ => by simp [awaitAddress, hi, hb, hf]
  have take : Takes [.dispatch] { s with main := .startSeen } { s with startF := false, main := .startTaken } :=
    .turn hs fun _ => rfl
  have enter : Takes [.dispatch] { s with startF := false, main := .startTaken }
      { s with startF := false, busState := .addressPhase, main := .rxEntry .clearStop .address } :=
    .turn hs fun _ => by simp [mainStep, enterAddressPhase, hb]
  exact poll.trans (take.trans enter)

/-- The block's state once the repeated start has ended the byte and its clock is held. -/
def restarted (s : State) : State :=
  { s with peerSda := true, startF := true, xfer := .finished .aborted, peerScl := true, sclPull := true }

/-- On the shift register the next poll takes the start, and `RxByte` is entered for its address byte (R182, R184, R185). -/
theorem restarted_served_plain {s : State} (hs : Served s) (hm : s.main = .receiveByte ∨ s.main = .sendByte)
    (hd : s.sdaPull = false) (hb : s.cfg.backend = .shiftRegister) :
    Takes (turns 8) (restarted s) { restarted s with
      startF := false, stopF := false, bitcnt := 8, sclPull := false, busState := .addressPhase,
      xfer := .rxData (.addressMatch s.cfg.addrMask), main := .awaitAddress } := by
  have leave : Takes [.dispatch] (restarted s) { restarted s with busState := .idle, xfer := .halted, main := .loop } :=
    .leavesAccess hs hm rfl fun rest => leaveAccess_rests (s := { restarted s with sched := rest })
      (by rw [restarted, hb]; nofun)
  have start := Takes.takesStart (s := { restarted s with busState := .idle, xfer := .halted, main := .loop }) hs hb rfl rfl rfl
  have receive := Takes.startsReceiving (s := { restarted s with
    startF := false, busState := .addressPhase, xfer := .halted, main := .rxEntry .clearStop .address }) hs rfl hd rfl
  exact leave.trans (start.trans receive)

/-- On the controller the peripheral receives the address byte, and the polls find nothing yet (R168, log 31). -/
theorem restarted_served_controller {s : State} (hs : Served s) (hm : s.main = .receiveByte ∨ s.main = .sendByte)
    (hb : s.cfg.backend = .controller) :
    Takes (turns 8) (restarted s) (loadAddress { restarted s with busState := .idle, main := .loop }) := by
  have leave : Takes [.dispatch] (restarted s) (loadAddress { restarted s with busState := .idle, main := .loop }) :=
    .leavesAccess hs hm rfl fun rest => leaveAccess_listens (s := { restarted s with sched := rest }) hb rfl rfl
  have polls := Takes.replicate (n := 7) <| Takes.polls
    (s := loadAddress { restarted s with busState := .idle, main := .loop }) hs rfl (.inr hb) (by simp [addressCompleted])
  exact leave.trans polls

/-- Settles O17: the start aborts the byte, the clock is held, the access is left, and the address byte is received as the backend
does it. -/
theorem servedAfterRepeatedStart : Obligations.ServedAfterRepeatedStart := by
  intro s hok ha hm hi hx hc hd
  have hs : Served s := ⟨hok, ha⟩
  have released := (sdaPull_of_sda hd).1
  have start := Takes.startAborts hs hc hd hi hx
  have clock := Takes.clockHeld (s := { s with peerSda := true, startF := true, xfer := .finished .aborted }) hs hc rfl rfl
  have restart : Takes [.peerSda true, .peerScl true] s (restarted s) := start.trans clock
  cases hb : s.cfg.backend with
  | shiftRegister =>
    refine ⟨_, (restart.trans (restarted_served_plain hs hm released hb)).run, rfl, rfl, rfl, released, rfl,
      fun _ => ⟨rfl, rfl, rfl⟩, nofun⟩
  | controller =>
    refine ⟨_, (restart.trans (restarted_served_controller hs hm hb)).run, rfl, rfl, rfl, rfl, rfl, nofun,
      fun _ => ⟨rfl, rfl, rfl⟩⟩
  | softwareBitbang => simp [Params.ok, Params.servesSlave, hb] at hok

end Sys2Proof.Machine
end

section
/-! PROOFS. A host's bytes beside a block that is idle: it neither answers nor holds the clock (R183, R187). -/

namespace Sys2Proof.Machine

/-- The block is idle between transactions with no start pending or being taken, its shifter stands still, and it pulls no line. -/
structure Unaddressed (s : State) : Prop where
  xfer : s.xfer = .halted
  busState : s.busState = .idle
  startF : s.startF = false
  main : s.main.changingOver = false
  sdaPull : s.sdaPull = false
  sclPull : s.sclPull = false

theorem Unaddressed.unstretched {s : State} (h : Unaddressed s) : stretchDue s = false := by
  simp [stretchDue, h.xfer, h.startF, h.busState, h.main]

theorem Unaddressed.clockRise {s : State} (h : Unaddressed s) : clockRise s = s := by
  simp only [Machine.clockRise, h.xfer]

/-- It does not hold the clock at its falling edge (R160). -/
theorem Unaddressed.clockFall {s : State} (h : Unaddressed s) : clockFall s = s := by
  simp [Machine.clockFall, h.xfer, h.unstretched]

/-- What the peer pulls is nothing of the block's. -/
theorem Unaddressed.peer {s : State} (h : Unaddressed s) (d c : Bool) : Unaddressed { s with peerSda := d, peerScl := c } :=
  { h with }

theorem Unaddressed.lowersClock {s : State} (h : Unaddressed s) : setPeerScl true s = { s with peerScl := true } := by
  cases hp : s.peerScl with
  | false =>
    rw [setPeerScl_falls (by simp [State.scl, h.sclPull, hp])]
    exact (h.peer s.peerSda true).clockFall
  | true =>
    have same : { s with peerScl := true } = s := by rw [← hp]
    rw [setPeerScl, drivingLines, same, lineEdges_same]

/-- In a clock pulse the data line is as the host left it (R153). -/
theorem Unaddressed.pulse {s : State} (h : Unaddressed s) (bit : Bool) :
    peerPulse bit s = (bit, { s with peerSda := !bit, peerScl := true }) := by
  have lowered : peerPulse bit s = peerPulse bit { s with peerScl := true } := by
    rw [peerPulse, peerPulse, h.lowersClock, (h.peer s.peerSda true).lowersClock]
  rw [lowered, peerPulse_low (s := { s with peerScl := true }) rfl h.sclPull, (h.peer (!bit) false).clockRise,
    (h.peer (!bit) true).clockFall]
  simp [State.sda, h.sdaPull]

/-- Nobody acknowledges the host's byte (R183). By induction on its bits. -/
theorem Unaddressed.ignoresWrite {s : State} (h : Unaddressed s) (bits : List Bool) :
    peerWrite bits s = ({ s with peerSda := false, peerScl := true, hostSaw := some (.ack false) }, none) := by
  induction bits generalizing s with
  | nil => simp [peerWrite, h.sclPull, h.pulse]
  | cons bit bits ih =>
    rw [peerWrite_bit h.sclPull, h.pulse]
    exact ih (h.peer _ _)

/-- While the peer holds the clock its write of the data line makes no edge that is sensed (R153). -/
theorem setPeerSda_low {s : State} (hp : s.peerScl = true) (d : Bool) : setPeerSda d s = { s with peerSda := d } := by
  have low : s.scl = false := by simp [State.scl, hp]
  rw [setPeerSda, drivingLines, low]
  exact lineEdges_low (s := { s with peerSda := d }) low _

theorem peerRead_last {s : State} (hc : s.sclPull = false) (acc : Byte) (ack : Bool) :
    peerRead 0 acc ack s =
      ({ setPeerSda false (peerPulse (!ack) s).2 with hostSaw := some (.byte acc) }, none) := by
  simp only [peerRead, hc]
  rfl

/-- Nobody drives the bits the host reads: they are ones (R183). By induction on their number. -/
theorem Unaddressed.ignoresRead {s : State} (h : Unaddressed s) (left : Nat) (acc : Byte) (ack : Bool) :
    peerRead left acc ack s = ({ s with
      peerSda := false, peerScl := true, hostSaw := some (.byte ((List.replicate left true).foldl shiftIn acc)) }, none) := by
  induction left generalizing s acc with
  | zero =>
    rw [peerRead_last h.sclPull, h.pulse, setPeerSda_low rfl]
    rfl
  | succ left ih =>
    rw [peerRead_bit h.sclPull, h.pulse]
    exact ih (h.peer _ _) _

/-- Settles O14: the host's bytes meet nobody, and eight ones are 0xFF. -/
theorem idleBlockIgnoresHostBytes : Obligations.IdleBlockIgnoresHostBytes := by
  intro s b ack hx hi hf hm hd hc
  have h : Unaddressed s := ⟨hx, hi, hf, hm, hd, hc⟩
  have write := h.ignoresWrite (msbFirst b)
  have read := h.ignoresRead 8 0 ack
  have ones : (List.replicate 8 true).foldl shiftIn 0 = 0xFF#8 := by decide
  rw [ones] at read
  exact ⟨congrArg Prod.snd write, congrArg Prod.snd read, congrArg Prod.fst write, congrArg Prod.fst read⟩

end Sys2Proof.Machine
end

section
/-! PROOFS. The complete address byte: its writes, and the access they begin (R182, R183, R210). -/

namespace Sys2Proof.Machine

/-- A turn of the main context in which it has no choice. -/
theorem step_mainTurn {s : State} {m : Move} {ms : List Move} {o : Host.Outcome State Fault Refusal} (hok : s.cfg.ok = true)
    (ha : s.asked = none) (hs : s.sched = m :: ms) (hm : m = .dispatch ∨ m = .convert)
    (h : ∀ choice, mainStep exec choice { s with sched := ms } = o) : step s = o := by
  rw [step_of_sched hok ha hs]
  rcases hm with rfl | rfl
  · exact h .dispatch
  · exact h .convert

theorem mainStep_awaitAddress {s : State} (hm : s.main = .awaitAddress) (run : Meaning) (choice : LoopChoice) :
    mainStep run choice s = awaitStep run s := by
  simp only [mainStep, hm]

theorem awaitStep_byte {s : State} {b : Byte} (hx : s.xfer = .finished (.byte b)) (run : Meaning) :
    awaitStep run s = thenNext (run (addressInstr b) s) afterAddress := by
  simp only [awaitStep, hx]

/-! ### After the meaning -/

/-- The writes of a match go on until the last has made `progress` fresh. -/
theorem afterAddress_underWay {s : State} (h : s.progress ≠ .fresh) : afterAddress s = s := by
  unfold afterAddress
  split
  · next hp => exact absurd hp h
  all_goals rfl

theorem afterAddress_fresh {s : State} (h : s.progress = .fresh) : afterAddress s = enterAccess s := by
  simp only [afterAddress, h]

/-- In a transfer the access its direction names begins (R210). -/
theorem enterAccess_transfer {s : State} (h : s.busState ≠ .idle) :
    enterAccess s = { s with xfer := .halted, main := if s.dir then .readAccess else .writeAccess } := by
  rw [enterAccess, if_neg h]
  cases s.dir <;> rfl

/-- The three continuations of the address byte (R182, R210). -/
theorem afterAddress_eq (s : State) :
    afterAddress s =
      if s.progress ≠ .fresh then s
      else if s.busState = .idle then listen { s with xfer := .halted, main := .loop }
      else { s with xfer := .halted, main := if s.dir then .readAccess else .writeAccess } := by
  split
  · next hp => exact afterAddress_underWay hp
  · next hp =>
    rw [afterAddress_fresh (not_not.mp hp)]
    split
    · next hb => exact if_pos hb
    · next hb => exact enterAccess_transfer hb

/-- Settles O6: a complete byte is run, and one of the three continuations follows. -/
theorem stepExecutesAddressByte : Obligations.StepExecutesAddressByte := by
  intro s b i m ms hok ha hm hx hs hd hi
  obtain rfl : addressInstr b = i := congrArg Prod.fst (Except.ok.inj hi)
  rw [← funext afterAddress_eq]
  exact step_mainTurn hok ha hs hd fun _ =>
    (mainStep_awaitAddress (s := { s with sched := ms }) hm _ _).trans (awaitStep_byte (s := { s with sched := ms }) hx _)

/-! ### The meaning -/

theorem exec_addr {s : State} (hv : s.cfg.servesSlave = true) (a : BitVec 7) (r : Bool) :
    exec (.addr a r) s = .next (finishAddress s.cfg.addrMask (a ++ BitVec.ofBool r) s) :=
  if_pos hv

/-- The two fields of an address byte (R90). -/
theorem addressByte_fields (a : BitVec 7) (r : Bool) :
    addrField (a ++ BitVec.ofBool r) = a ∧ rwField (a ++ BitVec.ofBool r) = r :=
  Instr.addr.inj (Laws.RoundTrip.addr a r rfl)

theorem finishAddress_matches {s : State} {b : Byte} {mask : BitVec 7} (hp : s.progress = .fresh)
    (ha : addressMatches s.cfg mask (addrField b) = true) :
    finishAddress mask b s = { s with matched := addrField b, progress := .addressDir } := by
  simp [finishAddress, hp, addressResult_eq, ha]

theorem finishAddress_dir {s : State} (hp : s.progress = .addressDir) (mask : BitVec 7) (b : Byte) :
    finishAddress mask b s = { s with dir := rwField b, progress := .addressState } := by
  simp only [finishAddress, hp]

theorem finishAddress_state {s : State} (hp : s.progress = .addressState) (mask : BitVec 7) (b : Byte) :
    finishAddress mask b s =
      { s with busState := if rwField b then .readTransfer else .writeTransfer, progress := .fresh } := by
  simp only [finishAddress, hp]

/-- An address that does not match returns the block to `Idle` (R183). -/
theorem finishAddress_unmatched {s : State} {b : Byte} {mask : BitVec 7} (hp : s.progress = .fresh)
    (ha : addressMatches s.cfg mask (addrField b) = false) : finishAddress mask b s = { s with busState := .idle } := by
  simp only [finishAddress, addressResult_eq, ha, hp, Bool.false_eq_true, if_false]

/-- The three writes of a match lead into the access the direction names (R182, R210). -/
theorem Takes.entersAccess {s : State} {b : Byte} (hs : Served s) (hm : s.main = .awaitAddress)
    (hx : s.xfer = .finished (.byte b)) (hp : s.progress = .fresh)
    (ha : addressMatches s.cfg s.cfg.addrMask (addrField b) = true) :
    Takes (turns 3) s { s with
      matched := addrField b, dir := rwField b, busState := if rwField b then .readTransfer else .writeTransfer,
      xfer := .halted, main := if rwField b then .readAccess else .writeAccess } := by
  have matched : Takes [.dispatch] s { s with matched := addrField b, progress := .addressDir } :=
    .finishesAddress hs hm hx fun rest => by
      rw [finishAddress_matches (s := { s with sched := rest }) hp ha, afterAddress_underWay (by simp)]
  have dir : Takes [.dispatch] { s with matched := addrField b, progress := .addressDir }
      { s with matched := addrField b, dir := rwField b, progress := .addressState } :=
    .finishesAddress hs hm hx fun _ => by rw [finishAddress_dir rfl, afterAddress_underWay (by simp)]
  have state : Takes [.dispatch] { s with matched := addrField b, dir := rwField b, progress := .addressState } { s with
      matched := addrField b, dir := rwField b, busState := if rwField b then .readTransfer else .writeTransfer,
      xfer := .halted, main := if rwField b then .readAccess else .writeAccess } :=
    .finishesAddress hs hm hx fun _ => by
      rw [finishAddress_state rfl, afterAddress_fresh rfl, enterAccess_transfer (by cases rwField b <;> nofun), ← hp]
  exact matched.trans (dir.trans state)

/-- Settles O8: the three writes of a match by the meaning and by the run, and the one write of a mismatch. -/
theorem addressByteBeginsAccessOrIdles : Obligations.AddressByteBeginsAccessOrIdles := by
  intro s a r hv
  obtain ⟨field, direction⟩ := addressByte_fields a r
  have write {t : State} (h : finishAddress s.cfg.addrMask (a ++ BitVec.ofBool r) s = t) : exec (.addr a r) s = .next t :=
    (exec_addr hv a r).trans (congrArg _ h)
  refine ⟨fun ha => ⟨fun hp => write ?_, fun hp => write ?_, fun hp => write ?_, fun hok hk hm hp hx => ?_⟩,
    fun ha hp => write (finishAddress_unmatched hp (by rw [field]; exact ha))⟩
  · rw [finishAddress_matches hp (by rw [field]; exact ha), field]
  · rw [finishAddress_dir hp, direction]
  · rw [finishAddress_state hp, direction]
  · have run := (Takes.entersAccess ⟨hok, hk⟩ hm hx hp (by rw [field]; exact ha)).run
    rwa [field, direction] at run

end Sys2Proof.Machine
end

section
/-! PROOFS. The turns of `await_address`, `receive_byte`, `send_byte` and `end_access` (R182, R184 to R186, R189, R190). -/

namespace Sys2Proof.Machine

/-- The main context's turn at the point where it stands. -/
theorem step_at {s t u : State} {ms : List Move} {p : MainPoint} (hok : s.cfg.ok = true) (ha : s.asked = none)
    (hs : s.sched = .dispatch :: ms) (hm : s.main = p)
    (h : mainStep exec .dispatch { s with sched := ms, main := p } = .next t) (e : t = u) : step s = .next u := by
  subst hm e
  exact step_dispatch hok ha hs h

theorem mainStep_loop {s : State} (hm : s.main = .loop) (run : Meaning) :
    mainStep run .dispatch s = .next (awaitAddress s) := by
  simp only [mainStep, hm]

/-- The shift register's poll finds a start that is latched (R182). -/
theorem awaitAddress_started {s : State} (hb : s.cfg.backend = .shiftRegister) (hi : s.busState = .idle)
    (hf : s.startF = true) : awaitAddress s = { s with main := .startSeen } := by
  simp [awaitAddress, hb, hi, hf]

theorem addressCompleted_plain {s : State} (hb : s.cfg.backend ≠ .controller) : addressCompleted s = false := by
  simp [addressCompleted, State.autonomous, hb]

theorem not_addressCompleted {s : State} (hx : ∀ b, s.xfer ≠ .finished (.byte b)) : addressCompleted s = false := by
  unfold addressCompleted
  split
  · next b h => exact absurd h (hx b)
  all_goals exact Bool.and_false _

theorem enterAddressPhase_plain {s : State} (hb : s.cfg.backend = .shiftRegister) :
    enterAddressPhase s = { s with busState := .addressPhase, main := .rxEntry .clearStop .address } := by
  simp only [enterAddressPhase, hb]

theorem enterAddressPhase_controller {s : State} (hb : s.cfg.backend = .controller) :
    enterAddressPhase s = { s with busState := .addressPhase, main := .awaitAddress } := by
  simp only [enterAddressPhase, hb]

/-- Settles O9: the poll finds nothing, or it finds the start, which is cleared before the address phase is entered. -/
theorem awaitAddressPolls : Obligations.AwaitAddressPolls := by
  intro s ms hok ha hs
  have polls {t : State} (hm : s.main = .loop) (h : awaitAddress { s with sched := ms } = t) : step s = .next t :=
    step_dispatch hok ha hs ((mainStep_loop (s := { s with sched := ms }) hm _).trans (congrArg _ h))
  refine ⟨fun hm hb hf => polls hm ?_, fun hm hb hx => polls hm ?_, fun hm hb hi hf => polls hm ?_,
    fun hm hb hi ⟨b, hx⟩ => polls hm ?_, fun hm => step_at hok ha hs hm rfl rfl,
    fun hm hb => step_at hok ha hs hm rfl (enterAddressPhase_plain hb),
    fun hm hb => step_at hok ha hs hm rfl (enterAddressPhase_controller hb)⟩
  · exact awaitAddress_quiet (.inl hf) (addressCompleted_plain (s := { s with sched := ms }) (by rw [hb]; nofun))
  · exact awaitAddress_quiet (.inr hb) (not_addressCompleted (s := { s with sched := ms }) hx)
  · exact awaitAddress_started (s := { s with sched := ms }) hb hi hf
  · exact awaitAddress_completed (s := { s with sched := ms }) (autonomous_iff.mpr ⟨hb, hi, by rw [hm]; rfl⟩) hx

/-! ### The access is left -/

/-- Nothing is left to do for the peripheral: it is no controller's, or no start is latched (R190, log 31). -/
theorem leaveAccess_quiet {s : State} (h : s.cfg.backend = .shiftRegister ∨ s.startF = false) :
    leaveAccess s = { s with busState := .idle, xfer := .halted, main := .loop } := by
  rcases h with h | h
  · exact leaveAccess_rests (by rw [h]; nofun)
  · simp [leaveAccess, listen, h]

theorem mainStep_awaitAborted {s : State} (hm : s.main = .awaitAddress) (hx : s.xfer = .finished .aborted) (run : Meaning)
    (choice : LoopChoice) : mainStep run choice s = .next (leaveAccess s) := by
  simp only [mainStep, hm, awaitStep, hx]

/-- A turn that leaves the access, and nothing else is left to do. -/
theorem step_leavesAccess {s : State} {ms : List Move} (hok : s.cfg.ok = true) (ha : s.asked = none)
    (hs : s.sched = .dispatch :: ms) (hb : s.cfg.backend = .shiftRegister ∨ s.startF = false)
    (h : mainStep exec .dispatch { s with sched := ms } = .next (leaveAccess { s with sched := ms })) :
    step s = .next { s with sched := ms, busState := .idle, xfer := .halted, main := .loop } :=
  step_dispatch hok ha hs (h.trans (congrArg _ (leaveAccess_quiet hb)))

/-- Settles O11: the abort leaves the access, and only a controller goes on to the start that is latched. -/
theorem abortedAddressKeepsStart : Obligations.AbortedAddressKeepsStart := by
  intro s ms hok ha hm hx hs
  have leaves := mainStep_awaitAborted (s := { s with sched := ms }) hm hx exec .dispatch
  refine ⟨fun h => step_leavesAccess hok ha hs h leaves, fun hb hf hd hp => step_dispatch hok ha hs (leaves.trans ?_)⟩
  rw [leaveAccess_listens (s := { s with sched := ms }) hb hf hp]
  simp only [loadAddress, hd]

/-! ### `end_access` -/

/-- A write that leaves the clock as it is makes no condition, or a start, or a stop (R152, R153). -/
theorem lineEdges_clockKept (a : Bool) (s : State) :
    lineEdges a s.scl s = s ∨ lineEdges a s.scl s = senseStart s ∨ lineEdges a s.scl s = senseStop s := by
  unfold lineEdges
  cases s.scl <;> cases a <;> cases s.sda <;> simp

/-- A block that pulls the data line no longer does not pull it when a condition is sensed. -/
theorem abortXfer_sdaPull {s : State} (h : s.sdaPull = false) : (abortXfer s).sdaPull = false := by
  rw [abortXfer_released h]
  exact h

theorem senseStart_sdaPull {s : State} (h : s.sdaPull = false) : (senseStart s).sdaPull = false := by
  unfold senseStart
  split
  · rfl
  · exact abortXfer_sdaPull h

theorem senseStop_sdaPull {s : State} (h : s.sdaPull = false) : (senseStop s).sdaPull = false := by
  unfold senseStop
  split
  · split
    · rfl
    · exact h
  · exact abortXfer_sdaPull h

theorem abortXfer_sclPull (s : State) : (abortXfer s).sclPull = s.sclPull := by
  unfold abortXfer
  split <;> rfl

/-- Nor does it pull the clock then. -/
theorem senseStart_sclPull {s : State} (h : s.sclPull = false) : (senseStart s).sclPull = false := by
  unfold senseStart
  split
  · rfl
  · exact (abortXfer_sclPull _).trans h

theorem senseStop_sclPull {s : State} (h : s.sclPull = false) : (senseStop s).sclPull = false := by
  unfold senseStop
  split
  · split <;> exact h
  · exact (abortXfer_sclPull _).trans h

theorem endData_sdaPull (s : State) : (endData s).sdaPull = false := by
  have kept := lineEdges_clockKept s.sda { s with sdaPull := false }
  rcases kept with e | e | e
  · exact congrArg State.sdaPull e
  · exact (congrArg State.sdaPull e).trans (senseStart_sdaPull rfl)
  · exact (congrArg State.sdaPull e).trans (senseStop_sdaPull rfl)

theorem endData_quiet {s : State} (h : s.scl = false ∨ s.sdaPull = false) :
    endData s = { s with sdaPull := false, main := .endClock } := by
  rw [endData, setData_quiet h]

theorem clockRise_sclPull (s : State) : (clockRise s).sclPull = s.sclPull := by
  unfold clockRise abortIfSensed
  split
  · split
    · rfl
    · split
      · exact abortXfer_sclPull _
      · rfl
  · split <;> rfl
  all_goals rfl

theorem releaseClock_sclPull (x : Xfer) (s : State) : (releaseClock x s).sclPull = false := by
  rcases releaseClock_cases x s with e | e
  · rw [e]
  · rw [e]
    exact clockRise_sclPull _

/-- The peripheral that goes on to an address byte finds the clock released and leaves it so. -/
theorem listen_sclPull {s : State} (h : s.sclPull = false) : (listen s).sclPull = false := by
  unfold listen
  split
  · have level : s.scl = (loadAddress s).scl := by simp [State.scl, loadAddress, h]
    rw [drivingLines, level]
    rcases lineEdges_clockKept s.sda (loadAddress s) with e | e | e
    · rw [e]
      rfl
    · rw [e]
      exact senseStart_sclPull rfl
    · rw [e]
      exact senseStop_sclPull rfl
  · exact h

theorem endClock_sclPull (s : State) : (endClock s).sclPull = false :=
  listen_sclPull (s := { releaseClock s.xfer s with main := .loop }) (releaseClock_sclPull _ s)

/-- Settles O19: each of the three writes by itself, and as a step that makes no edge. -/
theorem endAccessReleasesTheBus : Obligations.EndAccessReleasesTheBus := by
  refine ⟨fun s => ⟨rfl, endData_sdaPull s, endClock_sclPull s⟩, fun s ms hok ha hs =>
    ⟨fun hm => step_at hok ha hs hm rfl rfl, fun hm hd => step_at hok ha hs hm rfl (endData_quiet hd),
      fun hm hx hf => step_at hok ha hs hm rfl (endClock_quiet hx hf)⟩⟩

/-! ### `receive_byte` and `send_byte` -/

theorem receiveBegin_eq {s : State} (h : s.busState = .writeTransfer) :
    receiveBegin s = { s with main := .rxEntry .clearStop .command } :=
  if_pos h

/-- The drivers agree on the end of a byte, the one delivered being in the shift register (R161, R168). -/
theorem driverResult_eq {s : State} {r : Status} (h : r = .acked ∨ r = .nacked ∨ r = .byte s.sr) : driverResult s r = r := by
  unfold driverResult
  rcases h with rfl | rfl | rfl <;> cases s.cfg.backend <;> rfl

theorem receiveStep_byte {s : State} {c : Byte} (hx : s.xfer = .finished (.byte c)) (hr : s.sr = c) :
    receiveStep s = { s with xfer := .halted, main := .execute c } := by
  simp only [receiveStep, hx, driverResult_eq (s := s) (r := .byte c) (.inr (.inr (by rw [hr])))]

/-- Settles O20: the entry, the byte delivered, and the byte aborted. -/
theorem receiveByteDeliversOrLeaves : Obligations.ReceiveByteDeliversOrLeaves := by
  intro s ms hok ha hs
  refine ⟨fun hm hb => step_at hok ha hs hm rfl (receiveBegin_eq hb),
    fun c hm hx hr => step_at hok ha hs hm rfl (receiveStep_byte hx hr),
    fun hm hx hb => step_leavesAccess hok ha hs hb ?_⟩
  exact mainStep_aborted (s := { s with sched := ms }) (.inl hm) hx _ _

/-- The stream goes on after an ACK (R185, R212). -/
theorem sendStep_acked {s : State} (hx : s.xfer = .finished .acked) :
    sendStep s = { s with xfer := .halted, main := .streamByte } := by
  simp only [sendStep, hx, driverResult_eq (s := s) (.inl rfl)]

theorem mainStep_nacked {s : State} (hm : s.main = .sendByte) (hx : s.xfer = .finished .nacked) (run : Meaning)
    (choice : LoopChoice) : mainStep run choice s = .next (leaveAccess s) := by
  simp only [mainStep, hm, sendStep, hx, driverResult_eq (s := s) (.inr (.inl rfl))]

/-- Settles O21: the cursor, the stream going on, and the two ends that leave the access. -/
theorem readAccessGoesOnOnlyAfterAck : Obligations.ReadAccessGoesOnOnlyAfterAck := by
  intro s ms hok ha hs
  refine ⟨fun hm => step_at hok ha hs hm rfl rfl, fun hm hx => step_at hok ha hs hm rfl (sendStep_acked hx),
    fun hm hx hb => step_leavesAccess hok ha hs hb ?_⟩
  rcases hx with hx | hx
  · exact mainStep_nacked (s := { s with sched := ms }) hm hx _ _
  · exact mainStep_aborted (s := { s with sched := ms }) (.inr hm) hx _ _

/-! ### A primitive in progress -/

theorem awaitStep_waits {s : State} (hx : s.xfer.active = true) (run : Meaning) : awaitStep run s = .next s := by
  cases h : s.xfer with
  | halted => simp [h, Xfer.active] at hx
  | finished r => simp [h, Xfer.active] at hx
  | _ => simp only [awaitStep, h]

theorem receiveStep_waits {s : State} (hx : s.xfer.active = true) : receiveStep s = s := by
  cases h : s.xfer with
  | finished r => simp [h, Xfer.active] at hx
  | _ => simp only [receiveStep, h]

theorem sendStep_waits {s : State} (hx : s.xfer.active = true) : sendStep s = s := by
  cases h : s.xfer with
  | finished r => simp [h, Xfer.active] at hx
  | _ => simp only [sendStep, h]

/-- Where the main context waits for a primitive, a primitive in progress makes it wait (R189). -/
theorem mainStep_waits {s : State} (hm : s.main = .awaitAddress ∨ s.main = .receiveByte ∨ s.main = .sendByte)
    (hx : s.xfer.active = true) (run : Meaning) (choice : LoopChoice) : mainStep run choice s = .next s := by
  rcases hm with hm | hm | hm
  · rw [mainStep_awaitAddress hm, awaitStep_waits hx]
  · simp only [mainStep, hm, receiveStep_waits hx]
  · simp only [mainStep, hm, sendStep_waits hx]

/-- Settles O23: each of the three operations waits. -/
theorem mainContextWaitsForThePeer : Obligations.MainContextWaitsForThePeer := by
  intro s m ms hok ha hm hx hs hd
  exact step_mainTurn hok ha hs hd fun choice => mainStep_waits (s := { s with sched := ms }) hm hx _ choice

end Sys2Proof.Machine
end

section
/-! PROOFS. The command byte: the step that runs it, and what its meaning leaves alone (R101, R211, R232). -/

namespace Sys2Proof.Machine

theorem mainStep_execute {s : State} {c : Byte} (hm : s.main = .execute c) (run : Meaning) (choice : LoopChoice) :
    mainStep run choice s = thenNext (run (commandInstr c) s) afterExecute := by
  simp only [mainStep, hm]

/-- The two continuations of a command's step (R211). -/
theorem afterExecute_eq (s : State) : afterExecute s = if s.progress = .fresh then { s with main := .endAccess } else s := by
  split
  · next hp => exact afterExecute_fresh hp
  · next hp => exact afterExecute_underWay hp

/-- Settles O5: the decoded byte is run, and one of the two continuations follows. -/
theorem stepExecutesCommandByte : Obligations.StepExecutesCommandByte := by
  intro s c i m ms hok ha hm hs hd hi
  obtain rfl : commandInstr c = i := congrArg Prod.fst (Except.ok.inj hi)
  rw [← funext afterExecute_eq]
  exact step_mainTurn hok ha hs hd fun _ => mainStep_execute (s := { s with sched := ms }) hm _ _

/-! ### What a calibration command leaves alone -/

/-- From `s` to `t` nothing has changed but the store, the draws and the progress of a calibration command (R232, C3). -/
def CalibrationFrame (s t : State) : Prop :=
  t = { s with
    nv := t.nv, nvBusy := t.nvBusy, nvWrites := t.nvWrites, draws := t.draws, progress := t.progress, lowByte := t.lowByte }

theorem cornerSet_calibrates (j : Joystick) (f : TrimField) (s : State) : CalibrationFrame s (cornerSet j f s) := by
  unfold cornerSet
  split
  · rfl
  · next x _ _ => rcases nvWrite16_cases (trimWord (joystickX j) f) x s with e | e <;> rw [e] <;> rfl
  · next y _ => rcases nvWrite16_cases (trimWord (joystickY j) f) y s with e | e <;> rw [e] <;> rfl
  all_goals rfl

theorem recompute_calibrates (j : Joystick) (s : State) : CalibrationFrame s (recompute j s) := by
  unfold recompute
  split
  · rfl
  · next ch _ => rcases nvRead16_cases (trimWord ch .min) s with ⟨l, e⟩ | ⟨v, e⟩ <;> rw [e] <;> rfl
  · next ch _ _ => rcases nvRead16_cases (trimWord ch .max) s with ⟨l, e⟩ | ⟨v, e⟩ <;> rw [e] <;> rfl
  · next ch mn mx _ =>
    rcases nvRead16_cases (trimWord ch .factor) s with ⟨l, e⟩ | ⟨v, e⟩ <;> rw [e]
    · rfl
    · simp only [scaleFactor_eq]
      rfl
  · next ch new _ => rcases nvWrite16_cases (trimWord ch .factor) new s with e | e <;> rw [e] <;> rfl
  all_goals rfl

theorem CalibrationFrame.mode {s t : State} (h : CalibrationFrame s t) : t.mode = s.mode := by rw [h]

theorem CalibrationFrame.command {s t : State} (h : CalibrationFrame s t) :
    t = { s with
      nv := t.nv, nvBusy := t.nvBusy, nvWrites := t.nvWrites, draws := t.draws, mode := t.mode, progress := t.progress,
      lowByte := t.lowByte } := by
  rw [h.mode]
  exact h

/-- Settles O53: a selector stores its value, a corner or recompute command calibrates. -/
theorem noCommandTouchesSamplesOrOutputs : Obligations.NoCommandTouchesSamplesOrOutputs := by
  intro s c
  rcases commandInstr_kinds c with ⟨hc, he⟩ | ⟨hc, ⟨j, f, he⟩ | ⟨j, he⟩⟩
  · exact ⟨selectMode c s, he s, rfl, by rw [if_neg hc]; rfl⟩
  · have h := cornerSet_calibrates j f s
    exact ⟨_, he s, h.command, by rw [if_pos hc]; exact h.mode⟩
  · have h := recompute_calibrates j s
    exact ⟨_, he s, h.command, by rw [if_pos hc]; exact h.mode⟩

end Sys2Proof.Machine
end

section
/-! PROOFS. The streams of a read access: the byte at each cursor, and the stream repeated for any number of bytes (R213 to R222,
R229 to R231). -/

namespace Sys2Proof.Machine

theorem Source.len_le (src : Source) : src.len ≤ 24 := by
  cases src <;> simp [Source.len]

/-- Settles O4: the buttons byte is the two registers side by side. -/
theorem buttonsByteLayout : Obligations.ButtonsByteLayout := by
  refine ⟨fun s => rfl, fun s d i => ?_⟩
  have hi := i.isLt
  constructor
  · exact BitVec.getLsbD_append.trans (if_pos hi)
  · exact BitVec.getLsbD_append.trans (if_neg (by omega))

theorem streamByte_fetched {s t : State} {f : Fetched} (h : fetchByte s = .ok (f, t)) :
    streamByte s = .ok (composeByte f t, advance t) := by
  simp only [streamByte, h]

/-- The cursor's successor in a stream that has bytes (R213). -/
theorem advanceCursor_val {len : Nat} (h0 : 0 < len) (hl : len ≤ 24) (c : Fin 24) :
    (advanceCursor len c).val = (c.val + 1) % len := by
  have := Nat.mod_lt (c.val + 1) h0
  rw [advanceCursor, if_neg (by omega)]
  exact Nat.mod_eq_of_lt (by omega)

/-- Settles O24: the byte at a cursor inside the stream is there, and the cursor goes on inside the stream. -/
theorem cursorAdvancesAndWraps : Obligations.CursorAdvancesAndWraps := by
  intro s hc h0
  obtain ⟨f, sn, k, e⟩ := fetchByte_ok hc
  have inside : CursorInStream { s with snap := sn, draws := k } := hc
  exact ⟨_, _, streamByte_fetched e, advanceCursor_val h0 (Source.len_le _) _, rfl, advance_inStream inside⟩

/-! ### A stream from its beginning -/

/-- The read access of `s.reading c` after `k` bytes of a stream that changes nothing else. -/
def State.readingAt (s : State) (c : Byte) (k : Nat) : State :=
  { s with mode := some c, cursor := ⟨k % (sourceOf (some c)).len % 24, Nat.mod_lt _ (by decide)⟩ }

theorem reading_eq_readingAt (s : State) (c : Byte) : s.reading c = s.readingAt c 0 := by
  simp [State.reading, State.readingAt]

section
variable {c : Byte} (hc : 0 < (sourceOf (some c)).len)
include hc

theorem readingAt_cursor (s : State) (k : Nat) : (s.readingAt c k).cursor.val = k % (sourceOf (some c)).len := by
  have := Nat.mod_lt k hc
  have := Source.len_le (sourceOf (some c))
  exact Nat.mod_eq_of_lt (by omega)

theorem advance_readingAt (s : State) (k : Nat) : advance (s.readingAt c k) = s.readingAt c (k + 1) := by
  have next : advanceCursor (sourceOf (some c)).len (s.readingAt c k).cursor = (s.readingAt c (k + 1)).cursor := by
    apply Fin.ext
    rw [advanceCursor_val hc (Source.len_le _), readingAt_cursor hc, readingAt_cursor hc, Nat.mod_add_mod]
  exact congrArg (fun n => { s with mode := some c, cursor := n }) next

end

/-- A stream whose `k`-th state `P k` gives the byte `byte k` and leads to the next one gives these bytes in turn. -/
theorem streamBytes_eq {P : Nat → State → Prop} {byte : Nat → Byte}
    (h : ∀ k s, P k s → ∃ t, streamByte s = .ok (byte k, t) ∧ P (k + 1) t) (n : Nat) :
    ∀ k s, P k s → streamBytes n s = .ok ((List.range n).map fun i => byte (k + i)) := by
  induction n with
  | zero => intros; rfl
  | succ n ih =>
    intro k s hs
    obtain ⟨t, e, ht⟩ := h k s hs
    simp [streamBytes, e, ih (k + 1) t ht, List.range_succ_eq_map, Nat.add_comm, Nat.add_left_comm]

/-- A stream whose reads change nothing: what is fetched at each cursor is put together to the byte. -/
theorem streamBytes_reading {s : State} {c : Byte} {byte : Nat → Byte} (hc : 0 < (sourceOf (some c)).len)
    (h : ∀ k, ∃ f, fetchByte (s.readingAt c k) = .ok (f, s.readingAt c k) ∧ composeByte f (s.readingAt c k) = byte k)
    (n : Nat) :
    streamBytes n (s.reading c) = .ok ((List.range n).map byte) := by
  have step (k : Nat) (t : State) (ht : t = s.readingAt c k) :
      ∃ u, streamByte t = .ok (byte k, u) ∧ u = s.readingAt c (k + 1) := by
    obtain ⟨f, e, hb⟩ := h k
    refine ⟨_, ?_, advance_readingAt hc s k⟩
    rw [ht, streamByte_fetched e, hb]
  simpa using streamBytes_eq step n 0 _ (reading_eq_readingAt s c)

/-- A stream of one byte, which every read finds again. -/
theorem streamBytes_single {s : State} {c b : Byte} {f : Fetched} (hc : 0 < (sourceOf (some c)).len)
    (h : ∀ k, fetchByte (s.readingAt c k) = .ok (f, s.readingAt c k) ∧ composeByte f (s.readingAt c k) = b) (n : Nat) :
    streamBytes n (s.reading c) = .ok (List.replicate n b) := by
  rw [streamBytes_reading hc (fun k => ⟨f, h k⟩), List.map_const', List.length_range]

/-! ### The output streams -/

/-- The five slots of `OUTMEM` (R62). -/
theorem outmemRead_slot (s : State) {i : Nat} (hi : i < 5) :
    ∃ f, outmemRead s i = some f ∧
      composeByte f s = [s.outAt 0, s.outAt 1, s.outAt 2, s.outAt 3, packButtons s.invalid s.deb].getD i 0 := by
  interval_cases i <;> exact ⟨_, rfl, rfl⟩

/-- Settles O25: the cursor runs through the five slots. -/
theorem rdAllStreamsFiveSlots : Obligations.RdAllStreamsFiveSlots := by
  refine ⟨rfl, fun s => ⟨rfl, streamBytes_reading (by decide) fun k => ?_⟩⟩
  have at5 : (s.readingAt 0#8 k).cursor.val = k % 5 := readingAt_cursor (by decide) s k
  obtain ⟨f, hf, hb⟩ := outmemRead_slot (s.readingAt 0#8 k) (Nat.mod_lt k (by decide : 0 < 5))
  refine ⟨f, ?_, hb⟩
  have hs : sourceOf (s.readingAt 0#8 k).mode = .all := rfl
  simp only [fetchByte, hs, at5, hf]

/-- Settles O26: one byte is the whole stream. -/
theorem singleByteSelectorsRepeat : Obligations.SingleByteSelectorsRepeat := by
  refine ⟨rfl, rfl, rfl, rfl, rfl, fun s => ⟨rfl, rfl, rfl, rfl, rfl, fun n => ⟨?_, ?_, ?_, ?_, ?_⟩⟩⟩
  · exact streamBytes_single (f := .byte (s.outAt 0)) (by decide) (fun _ => ⟨rfl, rfl⟩) n
  · exact streamBytes_single (f := .byte (s.outAt 1)) (by decide) (fun _ => ⟨rfl, rfl⟩) n
  · exact streamBytes_single (f := .byte (s.outAt 2)) (by decide) (fun _ => ⟨rfl, rfl⟩) n
  · exact streamBytes_single (f := .byte (s.outAt 3)) (by decide) (fun _ => ⟨rfl, rfl⟩) n
  · exact streamBytes_single (f := .debounced s.deb) (by decide) (fun _ => ⟨rfl, rfl⟩) n

/-! ### The raw samples -/

/-- `RAWMEM` as bytes: the four samples in channel order, each low byte first (R60, R67). -/
theorem rawHalf_sample (s : State) {i : Nat} (hi : i < 8) :
    rawHalf i (s.rawAt ⟨i / 2, by omega⟩) =
      [(s.rawAt 0).lo, (s.rawAt 0).hi, (s.rawAt 1).lo, (s.rawAt 1).hi,
       (s.rawAt 2).lo, (s.rawAt 2).hi, (s.rawAt 3).lo, (s.rawAt 3).hi].getD i 0 := by
  interval_cases i <;> rfl

/-- The channel whose sample the `k`-th byte of the raw stream is a half of. -/
def rawChan (k : Nat) : Chan := ⟨k % 8 / 2, by omega⟩

/-- Where the snapshot is used, a high byte finds in it the sample whose low byte was read before (R215). -/
def SnapHolds (s : State) (k : Nat) (w : Word) : Prop :=
  s.cfg.rawStreamSnapshot = true → k % 2 = 1 → w = s.rawAt (rawChan k)

/-- The `k`-th read of the raw stream, with the snapshot or without (R215). -/
theorem rawByte_readingAt {s : State} {k : Nat} {w : Word} (hw : SnapHolds s k w) :
    ∃ f v, rawByte (k % 8) (rawChan k) (State.readingAt { s with snap := w } 128#8 k) =
        (f, State.readingAt { s with snap := v } 128#8 k) ∧
      composeByte f (State.readingAt { s with snap := v } 128#8 k) = rawHalf (k % 8) (s.rawAt (rawChan k)) ∧
      SnapHolds s (k + 1) v := by
  have at8 (v : Word) : (State.readingAt { s with snap := v } 128#8 k).cursor.val = k % 8 := readingAt_cursor (by decide) _ k
  unfold rawByte
  by_cases hs : s.cfg.rawStreamSnapshot = true
  · by_cases hk : k % 2 = 0
    · refine ⟨.snapshot, s.rawAt (rawChan k), ?_, ?_, fun _ _ => ?_⟩
      · rw [if_pos (by exact hs), if_pos (by omega)]
        rfl
      · rw [composeByte, at8]
        rfl
      · have same : rawChan (k + 1) = rawChan k := Fin.ext (by simp only [rawChan]; omega)
        rw [same]
    · refine ⟨.snapshot, w, ?_, ?_, fun _ _ => by omega⟩
      · rw [if_pos (by exact hs), if_neg (by omega)]
      · rw [composeByte, at8, ← hw hs (by omega)]
        rfl
  · exact ⟨.byte (rawHalf (k % 8) (s.rawAt (rawChan k))), w, if_neg (by exact hs), rfl, fun h => absurd h hs⟩

/-- Settles O27: the cursor runs through the eight halves, the snapshot following it. -/
theorem rdRawStreamsLittleEndianPairs : Obligations.RdRawStreamsLittleEndianPairs := by
  refine ⟨rfl, fun s => ⟨rfl, fun n => ?_⟩⟩
  have step (k : Nat) (t : State) (ht : ∃ w, t = State.readingAt { s with snap := w } 128#8 k ∧ SnapHolds s k w) :
      ∃ u, streamByte t = .ok (rawHalf (k % 8) (s.rawAt (rawChan k)), u) ∧
        ∃ w, u = State.readingAt { s with snap := w } 128#8 (k + 1) ∧ SnapHolds s (k + 1) w := by
    obtain ⟨w, rfl, hw⟩ := ht
    obtain ⟨f, v, e, hb, hv⟩ := rawByte_readingAt hw
    have at8 : (State.readingAt { s with snap := w } 128#8 k).cursor.val = k % 8 := readingAt_cursor (by decide) _ k
    have fetch : fetchByte (State.readingAt { s with snap := w } 128#8 k) =
        .ok (f, State.readingAt { s with snap := v } 128#8 k) := by
      have hs : sourceOf (State.readingAt { s with snap := w } 128#8 k).mode = .rawSamples := rfl
      have lt : k % 8 < 8 := Nat.mod_lt k (by decide)
      simp only [fetchByte, hs, at8, lt, dif_pos]
      exact congrArg Except.ok e
    refine ⟨_, ?_, v, advance_readingAt (by decide) _ k, hv⟩
    rw [streamByte_fetched fetch, hb]
  have bytes := streamBytes_eq step n 0 (s.reading 128#8) ⟨s.snap, reading_eq_readingAt s _, nofun⟩
  rw [bytes]
  refine congrArg Except.ok (List.map_congr_left fun k _ => ?_)
  rw [Nat.zero_add]
  exact rawHalf_sample s (Nat.mod_lt k (by decide))

/-! ### The trim table -/

/-- The three fields of record `ch` (R63, R265). -/
theorem trimAddr_record (p : Params) (ch : Chan) :
    trimAddr p ch .min = p.nvBase + 6 * ch.val ∧ trimAddr p ch .max = p.nvBase + 6 * ch.val + 2 ∧
      trimAddr p ch .factor = p.nvBase + 6 * ch.val + 4 := by
  simp only [trimAddr, nvAddr, wordLo, trimWord, TrimField.word]
  omega

theorem ofBytes_bytes (l h : Byte) : (Word.ofBytes l h).lo = l ∧ (Word.ofBytes l h).hi = h :=
  ⟨BitVec.extractLsb'_append_eq_right, BitVec.extractLsb'_append_eq_left⟩

/-- The bytes of a stored field, low and high. -/
theorem trim_bytes (s : State) (ch : Chan) (f : TrimField) :
    memRead s.cfg s.nv (trimAddr s.cfg ch f) = (s.trim ch f).lo ∧
      memRead s.cfg s.nv (trimAddr s.cfg ch f + 1) = (s.trim ch f).hi := by
  obtain ⟨lo, hi⟩ := ofBytes_bytes (s.nvByte (wordLo (trimWord ch f))) (s.nvByte (wordHi (trimWord ch f)))
  exact ⟨lo.symm, hi.symm⟩

/-- Settles O28: the cursor runs through the table, whose records are the fields low byte first. -/
theorem rdTrimStreamsTheTable : Obligations.RdTrimStreamsTheTable := by
  refine ⟨rfl, trimAddr_record, fun s => ⟨rfl, streamBytes_reading (by decide) fun k => ?_, fun ch => ?_, fun k => rfl, ?_⟩⟩
  · have at24 : (s.readingAt 129#8 k).cursor.val = k % 24 := readingAt_cursor (by decide) s k
    exact ⟨_, rfl, congrArg (fun n => memRead s.cfg s.nv (s.cfg.nvBase + n)) at24⟩
  · obtain ⟨hmin, hmax, hfactor⟩ := trimAddr_record s.cfg ch
    have min := trim_bytes s ch .min
    have max := trim_bytes s ch .max
    have factor := trim_bytes s ch .factor
    rw [hmin] at min
    rw [hmax] at max
    rw [hfactor] at factor
    simp [List.range_succ, min, max, factor]
  · rw [Bool.eq_iff_iff, streamWaits_iff]
    simp [State.reading]

/-! ### No source -/

/-- A value that names no command selects nothing (R214, R231). -/
theorem sourceOf_unnamed (c : Byte) (h : (Instr.opaqueMode c).wellFormed = true) : sourceOf (some c) = .nothing := by
  revert c
  decide

/-- Without a source a free byte is drawn and the cursor stays (R213, R214). -/
theorem streamByte_nothing {s : State} (h : sourceOf s.mode = .nothing) :
    streamByte s = .ok (Config.freeByte s.draws, { s with draws := s.draws + 1 }) := by
  have fetch : fetchByte s = .ok (.byte (Config.freeByte s.draws), { s with draws := s.draws + 1 }) := by
    simp only [fetchByte, h, drawByte]
  rw [streamByte_fetched fetch]
  simp only [composeByte, advance, h, advanceCursor, Source.len, if_true]

/-- Settles O29: neither an unnamed value nor `MODE = None` has a source. -/
theorem opaqueStoresAndYieldsNoSource : Obligations.OpaqueStoresAndYieldsNoSource :=
  fun _ c => ⟨rfl, rfl, fun hc => streamByte_nothing (sourceOf_unnamed c hc), fun hm _ => streamByte_nothing (by rw [hm]; rfl)⟩

end Sys2Proof.Machine
end

section
/-! PROOFS. The corner commands, each run to its end: both samples stand in the store (R211, R223, R224, R226, R227, R275). -/

namespace Sys2Proof.Machine

/-! ### Two words written one after the other -/

theorem trimWord_ne {ch ch' : Chan} (h : ch ≠ ch') (f f' : TrimField) : trimWord ch f ≠ trimWord ch' f' := by
  have := f.word.isLt
  have := f'.word.isLt
  simp only [trimWord, ne_eq, Fin.ext_iff] at h ⊢
  omega

theorem joystickX_ne_joystickY (j : Joystick) : joystickX j ≠ joystickY j := by
  revert j
  decide

theorem storesWord.sameOutside {s t : State} {w : Fin 12} {v : Word} (h : storesWord s t w v) :
    storeSameOutside s t [wordLo w, wordHi w] := h.2.2

theorem storesWord.nvWord {s t : State} {w : Fin 12} {v : Word} (h : storesWord s t w v) : t.nvWord w = v := by
  obtain ⟨hlo, hhi, _⟩ := h
  rw [State.nvWord, hlo, hhi, ofBytes_lo_hi]

/-- A word written leaves every other word as it was. -/
theorem storesWord.nvWord_other {s t : State} {w w' : Fin 12} {v : Word} (h : storesWord s t w v) (hc : t.cfg = s.cfg)
    (hw : w' ≠ w) : t.nvWord w' = s.nvWord w' := by
  have ne : w'.val ≠ w.val := fun e => hw (Fin.ext e)
  have byte (k : Fin 24) (hk : k ≠ wordLo w ∧ k ≠ wordHi w) : t.nvByte k = s.nvByte k := by
    simp only [State.nvByte, hc]
    rw [← h.sameOutside _ (by simpa [nvAddr, Fin.ext_iff] using hk), hc]
  have lo : t.nvByte (wordLo w') = s.nvByte (wordLo w') := byte _ (by simp only [wordLo, wordHi, ne_eq, Fin.ext_iff]; omega)
  have hi : t.nvByte (wordHi w') = s.nvByte (wordHi w') := byte _ (by simp only [wordLo, wordHi, ne_eq, Fin.ext_iff]; omega)
  rw [State.nvWord, State.nvWord, lo, hi]

theorem storeSameOutside.trans {s t u : State} {l l' : List (Fin 24)} (h : storeSameOutside s t l) (g : storeSameOutside t u l')
    (hc : t.cfg = s.cfg) : storeSameOutside s u (l ++ l') := by
  intro a ha
  rw [List.map_append, List.mem_append, not_or] at ha
  rw [g a (by rw [hc]; exact ha.2), h a ha.1]

/-- Two different words written: each holds its value, and nothing else has changed. -/
theorem storesWord.twice {s t u : State} {w w' : Fin 12} {v v' : Word} (h : storesWord s t w v) (g : storesWord t u w' v')
    (hw : w ≠ w') (hc : t.cfg = s.cfg) (hc' : u.cfg = t.cfg) :
    u.nvWord w = v ∧ u.nvWord w' = v' ∧ storeSameOutside s u [wordLo w, wordHi w, wordLo w', wordHi w'] :=
  ⟨(g.nvWord_other hc' hw).trans h.nvWord, g.nvWord, h.sameOutside.trans g.sameOutside hc⟩

/-! ### The end of a calibration command -/

/-- The access of a command that is over has been left (R186). -/
def State.left (s : State) : State :=
  { s with main := .loop, progress := .fresh, lowByte := none, busState := .idle, sclPull := false }

theorem Takes.pollsLeft {s : State} (h : Serving s) (n : Nat) : Takes (turns n) s.left s.left := by
  obtain ⟨hs, hf, hx, _⟩ := h
  exact .replicate (.polls (s := s.left) hs rfl (.inl hf) (by simp [addressCompleted, State.left, hx])) n

theorem Takes.retiresLeft {s : State} (h : Serving s) : Takes [.retire] s.left (retire s).left := .retires h.1

/-- A command that is done ends the access, and the poll finds nothing from then on. -/
theorem Takes.comesToLeft {s : State} (h : Serving s) (n : Nat) :
    Takes (turns (n + 3)) { s with main := .endAccess, progress := .fresh, lowByte := none } s.left := by
  have leave : Takes [.dispatch] { s with main := .endAccess, progress := .fresh, lowByte := none }
      { s with main := .endData, progress := .fresh, lowByte := none, busState := .idle } := .leaves h.1 rfl
  have release : Takes (turns 2) { s with main := .endData, progress := .fresh, lowByte := none, busState := .idle } s.left :=
    .releases h rfl
  exact leave.trans (release.trans (.pollsLeft h n))

/-- A command just received that leads to `t`, every write retired, is run to its end, and leaves what `t` does (R211, R232). -/
theorem runCommand_calibrates {s t : State} {c : Byte} (h : commandReceived s = true)
    (run : Takes commandMoves (s.executing c) t.left) (frame : CalibrationFrame s t) (hb : t.nvBusy = false) :
    runCommand c s = .next { t.left with sched := [] } ∧ afterCommand s { t.left with sched := [] } := by
  have hl : s.lowByte = none := by simp_all [commandReceived]
  constructor
  · have e : s.executing c = { s with main := .execute c, progress := .fresh } := by rw [State.executing, ← hl]
    rw [e] at run
    exact run.run
  · unfold CalibrationFrame at frame
    rw [frame]
    simp only [afterCommand, State.left, hb, hl]

theorem commandReceived_serving {s : State} (h : commandReceived s = true) : Serving s := by
  obtain ⟨hok, ha, _, hx, hf, hd, _⟩ : s.cfg.ok = true ∧ s.asked = none ∧ s.busState = .writeTransfer ∧
      s.xfer = .halted ∧ s.startF = false ∧ s.sdaPull = false ∧ s.lowByte = none := by
    simpa [commandReceived, and_assoc] using h
  exact ⟨⟨hok, ha⟩, hf, hx, hd⟩

/-- The step of a command that commits a word of a canonical store (R64). -/
theorem Takes.commitsWord {s : State} {c : Byte} {p : Progress} {w : Fin 12} {v : Word} (h : Serving s) (hm : s.main = .execute c)
    (hw : Memory.wf s.cfg s.nv = true)
    (he : ∀ rest, exec (commandInstr c) { s with sched := rest } =
      .next { nvCommit w v { s with sched := rest } with progress := p }) :
    ∃ nv, storesWord s { s with nv := nv } w v ∧ Memory.wf s.cfg nv = true ∧
      Takes [.dispatch] s (afterExecute { s with nv := nv, nvWrites := s.nvWrites + 1, nvBusy := true, progress := p }) :=
  ⟨(nvCommit w v s).nv, nvCommit_storesWord hw w v, nvCommit_wf hw w v,
    .executes (t := { nvCommit w v s with progress := p }) h hm he⟩

/-! ### The corner commands -/

theorem cornerSet_first {j : Joystick} {f : TrimField} {s : State} {x y : Word} (hb : s.nvBusy = false)
    (hp : s.progress = .cornerFirst x y) :
    cornerSet j f s = { nvCommit (trimWord (joystickX j) f) x s with progress := .cornerSecond y } := by
  simp only [cornerSet, hp, nvWrite16_free hb]

theorem cornerSet_second {j : Joystick} {f : TrimField} {s : State} {y : Word} (hb : s.nvBusy = false)
    (hp : s.progress = .cornerSecond y) :
    cornerSet j f s = { nvCommit (trimWord (joystickY j) f) y s with progress := .fresh } := by
  simp only [cornerSet, hp, nvWrite16_free hb]

/-- `CornerSet`: the samples, the first write, and the second one after the first has retired (R275). -/
theorem Takes.corners {s : State} {c : Byte} {j : Joystick} {f : TrimField} (h : Serving s)
    (he : ∀ s, exec (commandInstr c) s = .next (cornerSet j f s)) (hw : Memory.wf s.cfg s.nv = true) :
    ∃ nv nv', storesWord s { s with nv := nv } (trimWord (joystickX j) f) (s.rawAt (joystickX j)) ∧
      storesWord { s with nv := nv } { s with nv := nv' } (trimWord (joystickY j) f) (s.rawAt (joystickY j)) ∧
      Takes commandMoves (s.executing c) (State.left { s with nv := nv', nvWrites := s.nvWrites + 2, nvBusy := false }) := by
  let x := s.rawAt (joystickX j)
  let y := s.rawAt (joystickY j)
  let u : State := { s.executing c with nvBusy := false }
  have wait : Takes [.retire] (s.executing c) u := .retires h.1
  have samples : Takes [.dispatch] u { u with progress := .cornerFirst x y } := .goesOn h rfl nofun fun _ => he _
  obtain ⟨nv, hx, hw', first⟩ := Takes.commitsWord (s := { u with progress := .cornerFirst x y }) (p := .cornerSecond y)
    h rfl hw fun _ => by rw [he, cornerSet_first]; exacts [rfl, rfl]
  have wait' : Takes [.retire]
      { u with nv := nv, nvWrites := s.nvWrites + 1, nvBusy := true, progress := .cornerSecond y }
      { u with nv := nv, nvWrites := s.nvWrites + 1, progress := .cornerSecond y } := .retires h.1
  obtain ⟨nv', hy, _, second⟩ := Takes.commitsWord
    (s := { u with nv := nv, nvWrites := s.nvWrites + 1, progress := .cornerSecond y }) (p := .fresh)
    h rfl hw' fun _ => by rw [he, cornerSet_second]; exacts [rfl, rfl]
  let t : State := { s with nv := nv', nvWrites := s.nvWrites + 2, nvBusy := true }
  have leave := Takes.comesToLeft (s := t) h 2
  have retire := Takes.retiresLeft (s := t) h
  have poll := Takes.pollsLeft (s := { t with nvBusy := false }) h 10
  have retire' := Takes.retiresLeft (s := { t with nvBusy := false }) h
  exact ⟨nv, nv', hx, hy, wait.trans <| samples.trans <| first.trans <| wait'.trans <| second.trans <| leave.trans <|
    retire.trans <| poll.trans retire'⟩

/-- A corner command, run to its end, has stored both samples (R275). -/
theorem storesCorner_of_exec {s : State} {c : Byte} {j : Joystick} {f : TrimField}
    (he : ∀ s, exec (commandInstr c) s = .next (cornerSet j f s)) (h : commandReceived s = true)
    (hw : Memory.wf s.cfg s.nv = true) : storesCorner c j f s := by
  obtain ⟨nv, nv', hx, hy, moves⟩ := Takes.corners (commandReceived_serving h) he hw
  obtain ⟨x, y, same⟩ := hx.twice hy (trimWord_ne (joystickX_ne_joystickY j) f f) rfl rfl
  obtain ⟨run, after⟩ := runCommand_calibrates h moves rfl rfl
  exact ⟨_, run, after, x, y, same, rfl, rfl⟩

/-- Settles O31: the four corner commands are `CornerSet` with their joystick and field. -/
theorem cornerCommandsStoreBothSamples : Obligations.CornerCommandsStoreBothSamples := by
  refine ⟨rfl, rfl, rfl, rfl, fun s h hw => ⟨?_, ?_, ?_, ?_⟩⟩
  · exact storesCorner_of_exec (fun _ => rfl) h hw
  · exact storesCorner_of_exec (fun _ => rfl) h hw
  · exact storesCorner_of_exec (fun _ => rfl) h hw
  · exact storesCorner_of_exec (fun _ => rfl) h hw

end Sys2Proof.Machine
end

section
/-! PROOFS. The recompute commands, each run to its end: the factor of each channel, written only if it changed (R225, R228,
R274, R276). -/

namespace Sys2Proof.Machine

/-! ### The factor of a channel -/

/-- `ScaleFactor` of the stored corners (R274). -/
theorem scaleFactorDrawn_corners (s : State) (ch : Chan) :
    scaleFactorDrawn (s.trim ch .min) (s.trim ch .max) s.draws = (newFactor s ch s.draws, s.draws + factorDraws s ch) := by
  unfold scaleFactorDrawn newFactor factorDraws scaleFactorValue
  by_cases h : (s.trim ch .max).toNat < (s.trim ch .min).toNat
  · simp [h]
  · simp [h]

/-- A channel whose fields are the same has the same new factor. -/
theorem newFactor_congr {s t : State} {ch : Chan} (h : ∀ f, t.trim ch f = s.trim ch f) (k : Nat) :
    newFactor t ch k = newFactor s ch k ∧ factorDraws t ch = factorDraws s ch ∧ factorWrites t ch k = factorWrites s ch k := by
  have new : newFactor t ch k = newFactor s ch k := by simp only [newFactor, h]
  refine ⟨new, by simp only [factorDraws, h], ?_⟩
  rw [factorWrites, new, h]
  rfl

/-- In the store `nv` the channel holds the factor of the corners it has in `s`, and nothing else has changed (R276). -/
def StoresFactor (s : State) (ch : Chan) (nv : List Host.Cell) : Prop :=
  storesWord s { s with nv := nv } (trimWord ch .factor) (newFactor s ch s.draws) ∧ Memory.wf s.cfg nv = true

/-- A factor that has not changed stands in the store as it is. -/
theorem StoresFactor.unchanged {s : State} {ch : Chan} (hw : Memory.wf s.cfg s.nv = true)
    (h : newFactor s ch s.draws = s.trim ch .factor) : StoresFactor s ch s.nv := by
  obtain ⟨lo, hi⟩ := trim_bytes s ch .factor
  exact ⟨⟨lo.trans (by rw [h]), hi.trans (by rw [h]), fun _ _ => rfl⟩, hw⟩

/-! ### The steps of a channel -/

section
variable {c : Byte} {j : Joystick} {s : State} (h : Serving s) (hb : s.nvBusy = false)
  (he : ∀ s, exec (commandInstr c) s = .next (recompute j s)) (hm : s.main = .execute c)
include h hb he hm

theorem Takes.readsMinLow {ch : Chan} (hp : s.progress = .recomputeMin ch) (hl : s.lowByte = none) :
    Takes [.dispatch] s { s with lowByte := some (s.nvByte (wordLo (trimWord ch .min))) } :=
  .goesOn h hm (by simp [hp]) fun _ => by rw [he, recompute_minLow]; exacts [rfl, hb, hp, hl]

/-- The other five byte reads of a channel's fields give its new factor (R274, R276). -/
theorem Takes.readsFactor {ch : Chan} (hp : s.progress = .recomputeMin ch)
    (hl : s.lowByte = some (s.nvByte (wordLo (trimWord ch .min)))) :
    Takes (turns 5) s (afterExecute { s with
      lowByte := none, draws := s.draws + factorDraws s ch,
      progress := if newFactor s ch s.draws = s.trim ch .factor then recomputeNext j ch
        else .recomputeWrite ch (newFactor s ch s.draws) }) := by
  let mn := s.trim ch .min
  let mx := s.trim ch .max
  let l := s.nvByte (wordLo (trimWord ch .max))
  let l' := s.nvByte (wordLo (trimWord ch .factor))
  have minHigh : Takes [.dispatch] s { s with lowByte := none, progress := .recomputeMax ch mn } :=
    .goesOn h hm nofun fun _ => by rw [he, recompute_minHigh]; exacts [rfl, hb, hp, hl]
  have maxLow : Takes [.dispatch] { s with lowByte := none, progress := .recomputeMax ch mn }
      { s with lowByte := some l, progress := .recomputeMax ch mn } :=
    .goesOn h hm nofun fun _ => by rw [he, recompute_maxLow]; exacts [rfl, hb, rfl, rfl]
  have maxHigh : Takes [.dispatch] { s with lowByte := some l, progress := .recomputeMax ch mn }
      { s with lowByte := none, progress := .recomputeFactor ch mn mx } :=
    .goesOn h hm nofun fun _ => by rw [he, recompute_maxHigh]; exacts [rfl, hb, rfl, rfl]
  have factorLow : Takes [.dispatch] { s with lowByte := none, progress := .recomputeFactor ch mn mx }
      { s with lowByte := some l', progress := .recomputeFactor ch mn mx } :=
    .goesOn h hm nofun fun _ => by rw [he, recompute_factorLow]; exacts [rfl, hb, rfl, rfl]
  have factorHigh := Takes.executes (s := { s with lowByte := some l', progress := .recomputeFactor ch mn mx })
    (t := { s with
      lowByte := none, draws := (scaleFactorDrawn mn mx s.draws).2,
      progress := if (scaleFactorDrawn mn mx s.draws).1 = s.trim ch .factor then recomputeNext j ch
        else .recomputeWrite ch (scaleFactorDrawn mn mx s.draws).1 })
    h hm fun _ => by rw [he, recompute_factorHigh]; exacts [rfl, hb, rfl, rfl]
  rw [scaleFactorDrawn_corners] at factorHigh
  exact minHigh.trans <| maxLow.trans <| maxHigh.trans <| factorLow.trans factorHigh

/-- After five reads the factor that has not changed is left where it is, and one that has is written in a sixth step (R276). -/
theorem Takes.recomputesChannel {ch : Chan} (hp : s.progress = .recomputeMin ch)
    (hl : s.lowByte = some (s.nvByte (wordLo (trimWord ch .min)))) (hw : Memory.wf s.cfg s.nv = true) :
    (factorWrites s ch s.draws = 0 ∧ StoresFactor s ch s.nv ∧
      Takes (turns 5) s (afterExecute { s with
        lowByte := none, draws := s.draws + factorDraws s ch, progress := recomputeNext j ch })) ∨
    (factorWrites s ch s.draws = 1 ∧ ∃ nv, StoresFactor s ch nv ∧
      Takes (turns 6) s (afterExecute { s with
        lowByte := none, draws := s.draws + factorDraws s ch, progress := recomputeNext j ch, nv := nv,
        nvWrites := s.nvWrites + 1, nvBusy := true })) := by
  have reads := Takes.readsFactor h hb he hm hp hl
  by_cases hn : newFactor s ch s.draws = s.trim ch .factor
  · rw [if_pos hn] at reads
    exact .inl ⟨if_pos hn, .unchanged hw hn, reads⟩
  · rw [if_neg hn] at reads
    obtain ⟨nv, stored, hw', write⟩ := Takes.commitsWord (p := recomputeNext j ch)
      (s := { s with
        lowByte := none, draws := s.draws + factorDraws s ch, progress := .recomputeWrite ch (newFactor s ch s.draws) })
      h hm hw fun _ => by rw [he, recompute_writes]; exacts [hb, rfl]
    exact .inr ⟨if_neg hn, nv, ⟨stored, hw'⟩, reads.trans write⟩

end

/-! ### The two channels -/

section
variable {c : Byte} {j : Joystick} {s : State} (h : Serving s) (hb : s.nvBusy = false)
  (he : ∀ s, exec (commandInstr c) s = .next (recompute j s)) (hm : s.main = .execute c) (hw : Memory.wf s.cfg s.nv = true)
include h hb he hm hw

/-- The X channel from its second byte on, to the first byte of the Y channel: with a write or without, the write retired. -/
theorem Takes.recomputesX (hp : s.progress = .recomputeMin (joystickX j))
    (hl : s.lowByte = some (s.nvByte (wordLo (trimWord (joystickX j) .min)))) :
    ∃ nv k, k ≤ 1 ∧ StoresFactor s (joystickX j) nv ∧
      Takes (turns 6 ++ .retire :: turns k) s { s with
        nv := nv, nvBusy := false, nvWrites := s.nvWrites + factorWrites s (joystickX j) s.draws,
        draws := s.draws + factorDraws s (joystickX j), progress := .recomputeMin (joystickY j),
        lowByte := some (State.nvByte { s with nv := nv } (wordLo (trimWord (joystickY j) .min))) } := by
  rcases Takes.recomputesChannel h hb he hm hp hl hw with ⟨hn, stored, fields⟩ | ⟨hn, nv, stored, fields⟩
  · rw [recomputeNext_x] at fields
    let t : State := { s with
      lowByte := none, draws := s.draws + factorDraws s (joystickX j), progress := .recomputeMin (joystickY j) }
    have low := Takes.readsMinLow (s := t) h hb he hm rfl rfl
    have retire := Takes.retires (s := { t with lowByte := some (t.nvByte (wordLo (trimWord (joystickY j) .min))) }) h.1
    refine ⟨s.nv, 0, by omega, stored, ?_⟩
    rw [hn]
    exact fields.trans (low.trans retire)
  · rw [recomputeNext_x] at fields
    let t : State := { s with
      lowByte := none, draws := s.draws + factorDraws s (joystickX j), progress := .recomputeMin (joystickY j),
      nv := nv, nvWrites := s.nvWrites + 1 }
    have retire := Takes.retires (s := { t with nvBusy := true }) h.1
    have low := Takes.readsMinLow (s := { t with nvBusy := false }) h rfl he hm rfl rfl
    refine ⟨nv, 1, by omega, stored, ?_⟩
    rw [hn]
    exact fields.trans (retire.trans low)

/-- The Y channel from its second byte on, with a write or without, and the end of the access. -/
theorem Takes.recomputesY (hp : s.progress = .recomputeMin (joystickY j))
    (hl : s.lowByte = some (s.nvByte (wordLo (trimWord (joystickY j) .min)))) (n : Nat) :
    ∃ nv, StoresFactor s (joystickY j) nv ∧
      Takes (turns (n + 9) ++ [.retire]) s (State.left { s with
        nv := nv, nvBusy := false, nvWrites := s.nvWrites + factorWrites s (joystickY j) s.draws,
        draws := s.draws + factorDraws s (joystickY j) }) := by
  rcases Takes.recomputesChannel h hb he hm hp hl hw with ⟨hn, stored, fields⟩ | ⟨hn, nv, stored, fields⟩
  · rw [recomputeNext_y] at fields
    let t : State := { s with draws := s.draws + factorDraws s (joystickY j) }
    have leave := Takes.comesToLeft (s := t) h (n + 1)
    have retire := Takes.retiresLeft (s := t) h
    refine ⟨s.nv, stored, ?_⟩
    rw [hn]
    exact fields.trans (leave.trans retire)
  · rw [recomputeNext_y] at fields
    let t : State := { s with
      draws := s.draws + factorDraws s (joystickY j), nv := nv, nvWrites := s.nvWrites + 1, nvBusy := true }
    have leave := Takes.comesToLeft (s := t) h n
    have retire := Takes.retiresLeft (s := t) h
    refine ⟨nv, stored, ?_⟩
    rw [hn]
    exact fields.trans (leave.trans retire)
end

/-- `Recompute`: the X channel, and the Y channel, whose fields are still as they were (R276). -/
theorem Takes.recomputes {s : State} {c : Byte} {j : Joystick} (h : Serving s)
    (he : ∀ s, exec (commandInstr c) s = .next (recompute j s)) (hw : Memory.wf s.cfg s.nv = true) :
    ∃ nv nv', StoresFactor s (joystickX j) nv ∧
      StoresFactor { s with nv := nv, draws := s.draws + factorDraws s (joystickX j) } (joystickY j) nv' ∧
      Takes commandMoves (s.executing c) (State.left { s with
        nv := nv', nvBusy := false,
        nvWrites := s.nvWrites + factorWrites s (joystickX j) s.draws +
          factorWrites { s with nv := nv } (joystickY j) (s.draws + factorDraws s (joystickX j)),
        draws := s.draws + factorDraws s (joystickX j) + factorDraws { s with nv := nv } (joystickY j) }) := by
  let u : State := { s.executing c with nvBusy := false }
  have wait : Takes [.retire] (s.executing c) u := .retires h.1
  have begins : Takes [.dispatch] u { u with progress := .recomputeMin (joystickX j) } :=
    .goesOn h rfl nofun fun _ => he _
  have low := Takes.readsMinLow (s := { u with progress := .recomputeMin (joystickX j) }) h rfl he rfl rfl rfl
  let v : State := { u with
    progress := .recomputeMin (joystickX j), lowByte := some (u.nvByte (wordLo (trimWord (joystickX j) .min))) }
  have quiet : Takes [.retire] v v := .retires h.1
  obtain ⟨nv, k, hk, storedX, x⟩ := Takes.recomputesX (s := v) h rfl he rfl hw rfl rfl
  obtain ⟨nv', storedY, y⟩ := Takes.recomputesY (s := { v with
      nv := nv, nvWrites := s.nvWrites + factorWrites s (joystickX j) s.draws,
      draws := s.draws + factorDraws s (joystickX j), progress := .recomputeMin (joystickY j),
      lowByte := some (State.nvByte { s with nv := nv } (wordLo (trimWord (joystickY j) .min))) })
    h rfl he rfl storedX.2 rfl rfl (1 - k)
  have moves : commandMoves =
      .retire :: (turns 2 ++ .retire :: ((turns 6 ++ .retire :: turns k) ++ (turns (1 - k + 9) ++ [.retire]))) := by
    interval_cases k <;> rfl
  rw [moves]
  exact ⟨nv, nv', storedX, storedY, wait.trans <| begins.trans <| low.trans <| quiet.trans <| x.trans y⟩

/-- A recompute command, run to its end, has left each channel the factor of its corners (R276). -/
theorem recomputesFactors_of_exec {s : State} {c : Byte} {j : Joystick}
    (he : ∀ s, exec (commandInstr c) s = .next (recompute j s)) (h : commandReceived s = true)
    (hw : Memory.wf s.cfg s.nv = true) : recomputesFactors c j s := by
  obtain ⟨nv, nv', ⟨hx, _⟩, ⟨hy, _⟩, moves⟩ := Takes.recomputes (commandReceived_serving h) he hw
  have other (f : TrimField) : State.trim { s with nv := nv } (joystickY j) f = s.trim (joystickY j) f :=
    hx.nvWord_other rfl (trimWord_ne (joystickX_ne_joystickY j).symm f .factor)
  obtain ⟨new, draws, writes⟩ := newFactor_congr other (s.draws + factorDraws s (joystickX j))
  rw [draws, writes] at moves
  obtain ⟨x, y, same⟩ := storesWord.twice (u := { s with nv := nv' }) hx hy
    (trimWord_ne (joystickX_ne_joystickY j) .factor .factor) rfl rfl
  obtain ⟨run, after⟩ := runCommand_calibrates h moves rfl rfl
  exact ⟨_, run, after, x, y.trans new, same, rfl, rfl⟩

/-- Settles O33: the two recompute commands are `Recompute` with their joystick. -/
theorem recomputeCommandsWriteOnlyChanges : Obligations.RecomputeCommandsWriteOnlyChanges := by
  refine ⟨rfl, rfl, fun s h hw => ⟨?_, ?_⟩⟩
  · exact recomputesFactors_of_exec (fun _ => rfl) h hw
  · exact recomputesFactors_of_exec (fun _ => rfl) h hw

end Sys2Proof.Machine
end

section
/-! PROOFS. The debounce ticks: what one tick makes of one button, and what a run of ticks makes of it (R252, R254). -/

namespace Sys2Proof.Machine

/-! ### One tick of one button -/

theorem getLsbD_bits4 (f : Fin 4 → Bool) (i : Fin 4) : (bits4 f).getLsbD i.val = f i := by
  fin_cases i <;> simp only [bits4, BitVec.getLsbD_append, BitVec.getLsbD_ofBool] <;> simp

theorem getElem_four (f : Fin 4 → Nat) (i : Fin 4) : #v[f 0, f 1, f 2, f 3][i] = f i := by
  fin_cases i <;> rfl

/-- The logical level of button `i` at these pins (R251). -/
def pressedAt (p : Params) (i : Fin 4) (pins : BitVec 4) : Bool := Bool.xor (pins.getLsbD i.val) p.btnActiveLow

/-- What the debounce unit holds of button `i`: its debounced bit and its count. -/
def State.button (s : State) (i : Fin 4) : Bool × Nat := (s.deb.getLsbD i.val, s.dbc[i])

/-- An enabled `EV_D` is one tick of every button by its own input, bit and count (R252). -/
theorem evD_button {s : State} (hi : s.ie = true) (i : Fin 4) :
    (evD s).button i = debounceStep s.cfg.debThreshold (pressedAt s.cfg i s.btnIn) (s.button i).1 (s.button i).2 := by
  have bit : (evD s).deb.getLsbD i.val = (debounceButton s i).1 := by
    rw [evD, takeInterrupt_enabled hi]
    exact getLsbD_bits4 (fun i => (debounceButton s i).1) i
  have count : (evD s).dbc[i] = (debounceButton s i).2 := by
    rw [evD, takeInterrupt_enabled hi]
    exact getElem_four (fun i => (debounceButton s i).2) i
  exact Prod.ext bit count

/-- `EV_D` writes the debounced bits and the counts only (R252). -/
theorem evD_regs (s : State) : evD s = { s with deb := (evD s).deb, dbc := (evD s).dbc } := by
  unfold evD takeInterrupt
  split <;> rfl

/-- The three ways of a tick: agreement restarts the count, enough disagreement moves the bit, less of it counts (R252). -/
theorem debounceStep_cases (n : Nat) (p d : Bool) (k : Nat) :
    p = d ∧ debounceStep n p d k = (d, 0) ∨
    p ≠ d ∧ n ≤ k + 1 ∧ debounceStep n p d k = (p, 0) ∨
    p ≠ d ∧ k + 1 < n ∧ debounceStep n p d k = (d, k + 1) := by
  unfold debounceStep
  split
  · next agree => exact .inl ⟨agree, rfl⟩
  · next differ =>
    split
    · next enough => exact .inr (.inl ⟨differ, enough, rfl⟩)
    · next few => exact .inr (.inr ⟨differ, Nat.lt_of_not_le few, rfl⟩)

/-- Settles O48: with nothing due before it `EV_D` is the step, and each button is in one of the three ways of a tick. -/
theorem debounceTickEffect : Obligations.DebounceTickEffect := by
  intro s ms hok ha hi hd hs
  refine ⟨evD { s with sched := ms }, step_notDue hok ha hi hd hs rfl, evD_regs _, fun i => ?_⟩
  have tick := evD_button (s := { s with sched := ms }) hi i
  obtain ⟨agree, way⟩ | ⟨differ, enough, way⟩ | ⟨differ, few, way⟩ :=
    debounceStep_cases s.cfg.debThreshold (pressedAt s.cfg i s.btnIn) (s.button i).1 (s.button i).2
  all_goals obtain ⟨bit, count⟩ := Prod.mk.inj (tick.trans way)
  · exact (if_pos agree).mpr ⟨count, bit⟩
  · exact (if_neg differ).mpr ((if_pos enough).mpr ⟨count, bit⟩)
  · exact (if_neg differ).mpr ((if_neg few.not_ge).mpr ⟨count, bit⟩)

/-! ### A run of ticks of one button -/

/-- Ticks of one button alone, with these levels of its input, from its bit and its count. -/
def buttonRun (n : Nat) (levels : List Bool) (r : Bool × Nat) : Bool × Nat :=
  levels.foldl (fun r p => debounceStep n p r.1 r.2) r

/-- A run of debounce ticks is, for each button, a run of its own ticks: no button sees another's input (R252). -/
theorem debRun_button {s : State} (hi : s.ie = true) (i : Fin 4) (ps : List (BitVec 4)) :
    (debRun ps s).button i = buttonRun s.cfg.debThreshold (ps.map (pressedAt s.cfg i)) (s.button i) := by
  induction ps generalizing s with
  | nil => rfl
  | cons p ps ih =>
    have frame := evD_frame (setButtons p s)
    have tick := evD_button (s := setButtons p s) hi i
    rw [debRun, ih (frame.ie.trans hi), frame.cfg, tick]
    rfl

theorem buttonRun_snoc (n : Nat) (levels : List Bool) (p : Bool) (r : Bool × Nat) :
    buttonRun n (levels ++ [p]) r = debounceStep n p (buttonRun n levels r).1 (buttonRun n levels r).2 := by
  simp [buttonRun]

/-- The level was other than `d` at each of the last `k` ticks, and there were that many. -/
def DisagreedLast (levels : List Bool) (k : Nat) (d : Bool) : Prop :=
  k ≤ levels.length ∧ ∀ p ∈ levels.drop (levels.length - k), p ≠ d

theorem DisagreedLast.zero (levels : List Bool) (d : Bool) : DisagreedLast levels 0 d :=
  ⟨Nat.zero_le _, by simp⟩

theorem DisagreedLast.snoc {levels : List Bool} {k : Nat} {d p : Bool} (h : DisagreedLast levels k d) (hp : p ≠ d) :
    DisagreedLast (levels ++ [p]) (k + 1) d := by
  obtain ⟨long, differ⟩ := h
  have last : (levels ++ [p]).drop ((levels ++ [p]).length - (k + 1)) = levels.drop (levels.length - k) ++ [p] := by
    rw [List.length_append, List.length_singleton, Nat.add_sub_add_right, List.drop_append_of_le_length (Nat.sub_le _ _)]
  refine ⟨by simpa using long, ?_⟩
  rw [last]
  simpa [or_imp, forall_and, hp] using differ

theorem DisagreedLast.mono {levels : List Bool} {k n : Nat} {d : Bool} (h : DisagreedLast levels k d) (hn : n ≤ k) :
    DisagreedLast levels n d :=
  ⟨hn.trans h.1, fun _ hp => h.2 _ (List.drop_subset_drop_left levels (Nat.sub_le_sub_left hn _) hp)⟩

/-- The count counts: from 0, the input has disagreed with the bit at each of the last `DBC[i]` ticks (R252). -/
theorem buttonRun_disagreed (n : Nat) (levels : List Bool) (d : Bool) :
    DisagreedLast levels (buttonRun n levels (d, 0)).2 (buttonRun n levels (d, 0)).1 := by
  induction levels using List.reverseRecOn with
  | nil => exact .zero [] d
  | append_singleton levels p ih =>
    rw [buttonRun_snoc]
    obtain ⟨_, tick⟩ | ⟨_, _, tick⟩ | ⟨differ, _, tick⟩ :=
      debounceStep_cases n p (buttonRun n levels (d, 0)).1 (buttonRun n levels (d, 0)).2 <;> rw [tick]
    · exact .zero _ _
    · exact .zero _ _
    · exact ih.snoc differ

/-- A tick that moves the bit has the threshold's number of disagreeing ticks behind it, itself the last (R254). -/
theorem buttonRun_changed {n : Nat} {levels : List Bool} {p d : Bool}
    (h : (buttonRun n (levels ++ [p]) (d, 0)).1 ≠ (buttonRun n levels (d, 0)).1) :
    DisagreedLast (levels ++ [p]) n (buttonRun n levels (d, 0)).1 := by
  rw [buttonRun_snoc] at h
  obtain ⟨_, tick⟩ | ⟨differ, enough, _⟩ | ⟨_, _, tick⟩ :=
    debounceStep_cases n p (buttonRun n levels (d, 0)).1 (buttonRun n levels (d, 0)).2
  · exact absurd (congrArg Prod.fst tick) h
  · exact ((buttonRun_disagreed n levels d).snoc differ).mono enough
  · exact absurd (congrArg Prod.fst tick) h

/-- Under a constant level the bit has it at the end if it has it already, or if the count can still reach the threshold (R254). -/
theorem buttonRun_constant {n : Nat} {b : Bool} {levels : List Bool} (hb : ∀ p ∈ levels, p = b) {d : Bool} {k : Nat}
    (h : d = b ∨ levels ≠ [] ∧ n ≤ k + levels.length) : (buttonRun n levels (d, k)).1 = b := by
  induction levels generalizing d k with
  | nil => exact h.resolve_right fun none => none.1 rfl
  | cons p levels ih =>
    obtain ⟨rfl, rest⟩ := List.forall_mem_cons.mp hb
    show (buttonRun n levels (debounceStep n p d k)).1 = p
    obtain ⟨agree, tick⟩ | ⟨_, _, tick⟩ | ⟨differ, few, tick⟩ := debounceStep_cases n p d k <;> rw [tick]
    · exact ih rest (.inl agree.symm)
    · exact ih rest (.inl rfl)
    · have reach : n ≤ k + (levels.length + 1) := (h.resolve_left (Ne.symm differ)).2
      refine ih rest (.inr ⟨?_, by omega⟩)
      rintro rfl
      exact absurd reach (by simpa using few)

/-- Settles O49: each direction is that of the button's own run, `buttonRun_changed` and `buttonRun_constant`. -/
theorem debouncedBitLaw : Obligations.DebouncedBitLaw := by
  intro s i ps p hw hi
  have bit (qs : List (BitVec 4)) : (debRun qs s).deb.getLsbD i.val =
      (buttonRun s.cfg.debThreshold (qs.map (pressedAt s.cfg i)) (s.button i)).1 :=
    congrArg Prod.fst (debRun_button hi i qs)
  refine ⟨fun h0 change => ?_, fun constant long => ?_⟩
  · have start : s.button i = (s.deb.getLsbD i.val, 0) := Prod.ext rfl h0
    have snoc : (ps ++ [p]).map (pressedAt s.cfg i) = ps.map (pressedAt s.cfg i) ++ [pressedAt s.cfg i p] := List.map_append
    rw [bit, bit, start, snoc] at change
    have disagreed := buttonRun_changed change
    rw [← snoc, ← start, ← bit] at disagreed
    obtain ⟨enough, differ⟩ := disagreed
    rw [List.length_map, List.length_append] at enough differ
    rw [← List.map_drop] at differ
    exact ⟨enough, fun q hq => differ _ (List.mem_map_of_mem hq)⟩
  · obtain ⟨_, _, _, positive⟩ := Params.wf_bounds hw
    rw [bit]
    refine buttonRun_constant (List.forall_mem_map.mpr constant) (.inr ⟨?_, ?_⟩)
    · refine List.ne_nil_of_length_pos ?_
      rw [List.length_map]
      exact positive.trans long
    · rw [List.length_map]
      exact long.trans (Nat.le_add_left _ _)

end Sys2Proof.Machine
end

section
/-! PROOFS. The two formulas of the converter in natural numbers: the scale factor of a pair of corners, and the byte a sample
converts to (R268 to R271, R274). -/

namespace Sys2Proof.Machine

/-! ### The truncating division -/

/-- A distance upward, scaled: the division of integers is one of natural numbers (R268, R274). -/
theorem tdiv_above {low raw : Nat} (h : low ≤ raw) (f : Nat) :
    Int.tdiv (((raw : Int) - (low : Int)) * 6) f = (((raw - low) * 6 / f : Nat) : Int) := by
  rw [← Int.ofNat_sub h]
  exact (Int.ofNat_tdiv _ _).symm

/-- A distance downward, scaled: the division truncates toward zero (R268). -/
theorem tdiv_below {low raw : Nat} (h : raw ≤ low) (f : Nat) :
    Int.tdiv (((raw : Int) - (low : Int)) * 6) f = -(((low - raw) * 6 / f : Nat) : Int) := by
  rw [← tdiv_above h, ← Int.neg_tdiv, ← Int.neg_mul, Int.neg_sub]

/-! ### `ScaleFactor` -/

/-- The factor of corners in order (R274). -/
theorem scaleFactorValue_ordered {mn mx : Word} (h : mn.toNat ≤ mx.toNat) :
    scaleFactorValue mn mx = some (BitVec.ofNat 16 ((mx.toNat - mn.toNat) * 6 / 240)) := by
  rw [scaleFactorValue, if_neg (Nat.not_lt.mpr h), ← BitVec.ofInt_natCast, ← tdiv_above h]
  rfl

theorem scaleFactorValue_reversed {mn mx : Word} (h : mx.toNat < mn.toNat) : scaleFactorValue mn mx = none := if_pos h

/-- Settles O40: 16 bits hold every factor, the widest span giving 1638. -/
theorem scaleFactorFormula : Obligations.ScaleFactorFormula := by
  refine fun mn mx => ⟨fun h => ⟨_, scaleFactorValue_ordered h, ?_⟩, scaleFactorValue_reversed⟩
  have widest : (mx.toNat - mn.toNat) * 6 / 240 ≤ 1638 := by omega
  have fits : (BitVec.ofNat 16 ((mx.toNat - mn.toNat) * 6 / 240)).toNat = (mx.toNat - mn.toNat) * 6 / 240 :=
    (BitVec.toNat_ofNat _ _).trans (Nat.mod_eq_of_lt (by omega))
  refine ⟨fits, by omega, ?_⟩
  rw [← BitVec.toNat_inj, fits]
  change (mx.toNat - mn.toNat) * 6 / 240 = 0 ↔ _
  omega

/-! ### `Convert` -/

/-- What `Convert` takes from the sample: the minimum, or with the subtraction left out nothing (R268, R269). -/
def subtracted (p : Params) (mn : Word) : Nat := if p.convertSubtractMin then mn.toNat else 0

theorem convertValue_factorZero (p : Params) (raw mn : Word) : convertValue p raw mn 0 = none := rfl

/-- The byte a reading is cut to (R268). -/
def readingByte (v : Int) : Byte := BitVec.ofInt 8 (clampInt (v + desiredMinReading) absoluteMinReading absoluteMaxReading)

theorem readingByte_toNat (v : Int) : (readingByte v).toNat = min 255 (v + 8).toNat := by
  have clamped : clampInt (v + desiredMinReading) absoluteMinReading absoluteMaxReading =
      ((min 255 (v + 8).toNat : Nat) : Int) := by
    simp only [clampInt, desiredMinReading, absoluteMinReading, absoluteMaxReading]
    omega
  rw [readingByte, clamped, BitVec.ofInt_natCast, BitVec.toNat_ofNat]
  omega

theorem readingByte_natCast (q : Nat) : (readingByte q).toNat = min 255 (q + 8) := by
  rw [readingByte_toNat]
  omega

theorem readingByte_neg (q : Nat) : (readingByte (-q)).toNat = 8 - q := by
  rw [readingByte_toNat]
  omega

theorem convertValue_eq {f : Word} (hf : f ≠ 0) (p : Params) (raw mn : Word) :
    convertValue p raw mn f = some (readingByte (Int.tdiv (((raw.toNat : Int) - (subtracted p mn : Int)) * 6) f.toNat)) := by
  rw [convertValue, if_neg hf, subtracted]
  cases p.convertSubtractMin <;> rfl

/-- `Convert` with a factor, as a natural number (R268, R269). -/
theorem convertValue_toNat {f : Word} (hf : f ≠ 0) (p : Params) (raw mn : Word) :
    ∃ b : Byte, convertValue p raw mn f = some b ∧
      b.toNat = if subtracted p mn ≤ raw.toNat then min 255 ((raw.toNat - subtracted p mn) * 6 / f.toNat + 8)
        else 8 - (subtracted p mn - raw.toNat) * 6 / f.toNat := by
  refine ⟨_, convertValue_eq hf p raw mn, ?_⟩
  split
  · next above => rw [tdiv_above above, readingByte_natCast]
  · next below => rw [tdiv_below (Nat.le_of_not_le below), readingByte_neg]

/-- Settles O38: what is subtracted is the statement's `low`. -/
theorem convertFormula : Obligations.ConvertFormula :=
  ⟨convertValue_factorZero, fun p raw mn _ hf => convertValue_toNat hf p raw mn⟩

/-- Settles O39: from the subtracted minimum on the quotient grows with the sample, and the cut at 255 keeps the order. -/
theorem convertBoundedAndMonotone : Obligations.ConvertBoundedAndMonotone := by
  intro p mn mx f raw raw' _ _ _ hf low order _
  have floor : subtracted p mn ≤ mn.toNat := by
    unfold subtracted
    split <;> omega
  obtain ⟨b, hb, value⟩ := convertValue_toNat hf p raw mn
  obtain ⟨b', hb', value'⟩ := convertValue_toNat hf p raw' mn
  rw [if_pos (floor.trans low)] at value
  rw [if_pos (floor.trans (low.trans order))] at value'
  have grows : (raw.toNat - subtracted p mn) * 6 / f.toNat ≤ (raw'.toNat - subtracted p mn) * 6 / f.toNat :=
    Nat.div_le_div_right (by omega)
  rw [← Nat.add_le_add_iff_right (n := 8)] at grows
  refine ⟨b, b', hb, hb', ?_, ?_, ?_⟩
  · exact value ▸ le_min (by decide) (Nat.le_add_left 8 _)
  · exact value ▸ value' ▸ min_le_min_left 255 grows
  · exact value' ▸ min_le_left 255 _

end Sys2Proof.Machine
end

section
/-! PROOFS. The calibration commands, atomic step by atomic step (R223 to R228, R275, R276). -/

namespace Sys2Proof.Machine

/-- A step of a command that commits a word of a canonical store (R64). -/
theorem exec_commits {i : Instr} {s : State} {w : Fin 12} {v : Word} {p : Progress} (hw : Memory.wf s.cfg s.nv = true)
    (he : exec i s = .next { nvCommit w v s with progress := p }) :
    ∃ t : State, exec i s = .next t ∧ storesWord s t w v ∧
      t = { s with nv := t.nv, nvBusy := true, nvWrites := s.nvWrites + 1, progress := p } :=
  ⟨_, he, nvCommit_storesWord hw w v, rfl⟩

/-! ### The corner commands -/

theorem cornerSet_begins {s : State} (hp : s.progress = .fresh) (j : Joystick) (f : TrimField) :
    cornerSet j f s = { s with progress := .cornerFirst (s.rawAt (joystickX j)) (s.rawAt (joystickY j)) } := by
  simp only [cornerSet, hp, readPair, critical]
  rfl

/-- A command whose meaning is `CornerSet` takes its steps (R275). -/
theorem cornerSteps_of_exec {i : Instr} {j : Joystick} {f : TrimField} (he : ∀ s, exec i s = .next (cornerSet j f s)) :
    cornerSteps i j f := by
  refine fun s => ⟨fun begins => ?_, fun x y => ⟨fun busy waits => ?_, fun free hw first => ?_, fun free hw second => ?_⟩⟩
  · rw [he, cornerSet_begins begins]
  · rw [he, cornerSet_waits busy waits]
  · exact exec_commits hw (by rw [he, cornerSet_first free first])
  · exact exec_commits hw (by rw [he, cornerSet_second free second])

/-- Settles O32: the four corner commands are `CornerSet` with their joystick and field. -/
theorem cornerCommandSteps : Obligations.CornerCommandSteps := by
  refine ⟨?_, ?_, ?_, ?_⟩
  · exact cornerSteps_of_exec fun _ => rfl
  · exact cornerSteps_of_exec fun _ => rfl
  · exact cornerSteps_of_exec fun _ => rfl
  · exact cornerSteps_of_exec fun _ => rfl

/-! ### The recompute commands -/

theorem recompute_begins {s : State} (hp : s.progress = .fresh) (j : Joystick) :
    recompute j s = { s with progress := .recomputeMin (joystickX j) } := by
  simp only [recompute, hp]

/-- With a factor the spec states none is drawn (R274). -/
theorem scaleFactorDrawn_stated {mn mx v : Word} (h : scaleFactorValue mn mx = some v) (k : Nat) :
    scaleFactorDrawn mn mx k = (v, k) := by
  rw [scaleFactorDrawn, h]

theorem scaleFactorDrawn_reversed {mn mx : Word} (h : mx.toNat < mn.toNat) (k : Nat) :
    scaleFactorDrawn mn mx k = (Config.freeFactor k, k + 1) := by
  rw [scaleFactorDrawn, scaleFactorValue_reversed h]

/-- The last byte of a channel whose corners are in order (R276). -/
theorem recompute_factorHigh_ordered {s : State} {j : Joystick} {ch : Chan} {mn mx : Word} {lo : Byte} (hb : s.nvBusy = false)
    (hl : s.lowByte = some lo) (hp : s.progress = .recomputeFactor ch mn mx) (h : mn.toNat ≤ mx.toNat) :
    recompute j s = { s with
      lowByte := none
      progress := if scaleFactorValue mn mx = some (Word.ofBytes lo (s.nvByte (wordHi (trimWord ch .factor)))) then
        recomputeNext j ch else .recomputeWrite ch ((scaleFactorValue mn mx).getD 0) } := by
  obtain ⟨v, hv⟩ : ∃ v, scaleFactorValue mn mx = some v := ⟨_, scaleFactorValue_ordered h⟩
  simp only [recompute_factorHigh hb hp hl, scaleFactorDrawn_stated hv, hv, Option.some_inj, Option.getD_some]

/-- The last byte of a channel whose corners are reversed: the factor is free (R274, log 7). -/
theorem recompute_factorHigh_reversed {s : State} {j : Joystick} {ch : Chan} {mn mx : Word} {lo : Byte} (hb : s.nvBusy = false)
    (hl : s.lowByte = some lo) (hp : s.progress = .recomputeFactor ch mn mx) (h : mx.toNat < mn.toNat) :
    recompute j s = { s with
      lowByte := none
      draws := s.draws + 1
      progress := if Config.freeFactor s.draws = Word.ofBytes lo (s.nvByte (wordHi (trimWord ch .factor))) then
        recomputeNext j ch else .recomputeWrite ch (Config.freeFactor s.draws) } := by
  simp only [recompute_factorHigh hb hp hl, scaleFactorDrawn_reversed h]

/-- A command whose meaning is `Recompute` takes its steps (R276). -/
theorem recomputeSteps_of_exec {i : Instr} {j : Joystick} (he : ∀ s, exec i s = .next (recompute j s)) :
    recomputeSteps i j := by
  refine fun s => ⟨fun begins => ?_, fun busy ch a b waits => ?_, fun free ch mn mx new lo =>
    ⟨fun noByte => ⟨fun p => ?_, fun p => ?_, fun p => ?_⟩,
      fun low => ⟨fun p => ?_, fun p => ?_, fun p ordered => ?_, fun p reversed => ?_⟩, fun p hw => ?_⟩⟩
  · rw [he, recompute_begins begins]
  · rw [he, recompute_waits busy waits]
  · rw [he, recompute_minLow free p noByte]; rfl
  · rw [he, recompute_maxLow free p noByte]; rfl
  · rw [he, recompute_factorLow free p noByte]; rfl
  · rw [he, recompute_minHigh free p low]; rfl
  · rw [he, recompute_maxHigh free p low]; rfl
  · rw [he, recompute_factorHigh_ordered free low p ordered]; rfl
  · rw [he, recompute_factorHigh_reversed free low p reversed]; rfl
  · exact exec_commits (p := recomputeNext j ch) hw (by rw [he, recompute_writes free p])

/-- Settles O34: the two recompute commands are `Recompute` with their joystick. -/
theorem recomputeCommandSteps : Obligations.RecomputeCommandSteps :=
  ⟨recomputeSteps_of_exec fun _ => rfl, recomputeSteps_of_exec fun _ => rfl⟩

end Sys2Proof.Machine
end

section
/-! PROOFS. `CONVERT`, step by step and as a whole (R64, R78, R266 to R268, R270). -/

namespace Sys2Proof.Machine

/-! ### Its steps -/

theorem mainStep_convert {s : State} (hm : s.main = .loop) (run : Meaning) :
    mainStep run .convert s = .next (convertTake s) := by
  simp only [mainStep, hm]

theorem convertFlag_invalid {s : State} {ch : Chan} {r : Word} (h : s.cfg.captureLimit ≤ r.toNat) :
    convertFlag ch r s = { s with invalid := s.invalid ||| onehot ch, main := .loop } := by
  simp [convertFlag, sampleInvalid, h, setBit4]

theorem convertFlag_valid {s : State} {ch : Chan} {r : Word} (h : r.toNat < s.cfg.captureLimit) :
    convertFlag ch r s = { s with invalid := s.invalid &&& ~~~ onehot ch, main := .convertMin ch r } := by
  simp [convertFlag, sampleInvalid, Nat.not_le.mpr h, setBit4]

/-- A step that reads the word `w` and goes on to a point that may depend on it, once the word is complete (R64). -/
def readThen (w : Fin 12) (onward : Word → MainPoint) (s : State) : State :=
  match nvRead16 w s with
  | (none, t) => t
  | (some v, t) => { t with main := onward v }

/-- The three reads of `CONVERT`: minimum, maximum, factor (R78, R266, log 33). -/
theorem convertMin_eq (ch : Chan) (r : Word) : convertMin ch r = readThen (trimWord ch .min) (.convertMax ch r) := rfl

theorem convertMax_eq (ch : Chan) (r mn : Word) :
    convertMax ch r mn = readThen (trimWord ch .max) fun _ => .convertFactor ch r mn := rfl

theorem convertFactor_eq (ch : Chan) (r mn : Word) :
    convertFactor ch r mn = readThen (trimWord ch .factor) (.convertOut ch r mn) := rfl

/-- The byte `Convert` returns: the formula's, or for the factor 0 a drawn one (R270). -/
theorem convertByte_eq (raw mn f : Word) (s : State) :
    convertByte raw mn f s =
      ((convertValue s.cfg raw mn f).getD (Config.freeOutput s.draws),
        { s with draws := if f = 0 then s.draws + 1 else s.draws }) := by
  by_cases hf : f = 0
  · rw [hf]
    rfl
  · rw [convertByte, convertValue_eq hf, if_neg hf]
    rfl

theorem convertOut_eq (ch : Chan) (r mn f : Word) (s : State) :
    convertOut ch r mn f s = { s with
      draws := if f = 0 then s.draws + 1 else s.draws
      out := s.out.set ch ((convertValue s.cfg r mn f).getD (Config.freeOutput s.draws))
      main := .loop } := by
  rw [convertOut, convertByte_eq]

/-! ### Its turns -/

theorem Takes.convertTurn {s t : State} (hs : Served s)
    (h : ∀ rest, mainStep exec .convert { s with sched := rest } = .next { t with sched := rest }) : Takes [.convert] s t :=
  .cons (fun rest => by rw [step_scheduled hs.1 hs.2]; exact h rest) .nil

/-- A fresh sample is taken (R266). -/
theorem Takes.takesSample {s : State} (hs : Served s) (hm : s.main = .loop) (hu : s.updated = true) :
    Takes [.convert] s { s with updated := false, main := .convertFlag s.ready (s.rawAt s.ready) } :=
  .convertTurn hs fun rest => by
    rw [mainStep_convert (s := { s with sched := rest }) hm, convertTake_fresh (s := { s with sched := rest }) hu]
    rfl

/-- With no write in flight and no word half read, the two bytes of a word are read in two turns (R64). -/
theorem Takes.readsWord {s : State} {w : Fin 12} {onward : Word → MainPoint} (hs : Served s) (hb : s.nvBusy = false)
    (hl : s.lowByte = none)
    (h : ∀ t : State, t.main = s.main → mainStep exec .convert t = .next (readThen w onward t)) :
    Takes (List.replicate 2 .convert) s { s with main := onward (s.nvWord w) } := by
  let lo := s.nvByte (wordLo w)
  have low : Takes [.convert] s { s with lowByte := some lo } := .convertTurn hs fun rest => by
    rw [h { s with sched := rest } rfl, readThen, nvRead16_low (s := { s with sched := rest }) hb hl]
    rfl
  have high : Takes [.convert] { s with lowByte := some lo } { s with main := onward (s.nvWord w) } :=
    .convertTurn hs fun rest => by
      let t : State := { s with lowByte := some lo, sched := rest }
      have word : nvRead16 w t = (some (s.nvWord w), { t with lowByte := none }) := nvRead16_high (s := t) hb rfl
      rw [h t rfl, readThen, word, ← hl]
  exact low.trans high

/-- A valid sample is converted: three words are read, and the output byte is written (R266, R268). -/
theorem Takes.convertsSample {s : State} {ch : Chan} {r : Word} (hs : Served s) (hb : s.nvBusy = false) (hl : s.lowByte = none)
    (hm : s.main = .convertMin ch r) :
    Takes (List.replicate 7 .convert) s (convertOut ch r (s.trim ch .min) (s.trim ch .factor) s) := by
  let mn := s.trim ch .min
  let f := s.trim ch .factor
  have minimum : Takes (List.replicate 2 .convert) s { s with main := .convertMax ch r mn } :=
    .readsWord hs hb hl fun t stands => by simp only [mainStep, stands, hm, convertMin_eq]
  have maximum : Takes (List.replicate 2 .convert) { s with main := .convertMax ch r mn }
      { s with main := .convertFactor ch r mn } :=
    .readsWord (w := trimWord ch .max) (onward := fun _ => .convertFactor ch r mn) hs hb hl fun t stands => by
      simp only [mainStep, stands, convertMax_eq]
  have factor : Takes (List.replicate 2 .convert) { s with main := .convertFactor ch r mn }
      { s with main := .convertOut ch r mn f } :=
    .readsWord hs hb hl fun t stands => by simp only [mainStep, stands, convertFactor_eq]
  have output : Takes [.convert] { s with main := .convertOut ch r mn f } (convertOut ch r mn f s) :=
    .convertTurn hs fun rest => by simp only [mainStep, convertOut_eq]
  exact minimum.trans <| maximum.trans <| factor.trans output

/-- While a write is in flight a read of `CONVERT` waits (R64, R66). -/
theorem mainStep_convertWaits {s : State} {ch : Chan} {r mn : Word} (hb : s.nvBusy = true)
    (hm : s.main = .convertMin ch r ∨ s.main = .convertMax ch r mn ∨ s.main = .convertFactor ch r mn) (run : Meaning)
    (choice : LoopChoice) : mainStep run choice s = .next s := by
  rcases hm with hm | hm | hm <;> simp only [mainStep, hm]
  · rw [convertMin_waits hb]
  · rw [convertMax_waits hb]
  · rw [convertFactor_waits hb]

/-- Settles O41: an invalid sample ends the conversion at its flag, a valid one is converted in seven more turns. -/
theorem convertStepEffect : Obligations.ConvertStepEffect := by
  refine fun s ms hok ha => ⟨fun hm hu hs => ?_, fun hm hu invalid => ?_, fun hm hu hb hl valid => ?_,
    fun ch r mn hm hb hs => step_mainTurn hok ha hs (.inr rfl) (mainStep_convertWaits (s := { s with sched := ms }) hb hm exec)⟩
  · rw [step_of_sched hok ha hs, moveStep, mainStep_convert (s := { s with sched := ms }) hm,
      convertTake_stale (s := { s with sched := ms }) hu]
  · have take := Takes.takesSample ⟨hok, ha⟩ hm hu
    have flag : Takes [.convert] { s with updated := false, main := .convertFlag s.ready (s.rawAt s.ready) }
        { s with updated := false, invalid := s.invalid ||| onehot s.ready, main := .loop } :=
      .convertTurn ⟨hok, ha⟩ fun rest => congrArg Host.Outcome.next (convertFlag_invalid invalid)
    rw [← hm] at flag
    exact (take.trans flag).run
  · have take := Takes.takesSample ⟨hok, ha⟩ hm hu
    let t : State := { s with
      updated := false, invalid := s.invalid &&& ~~~ onehot s.ready, main := .convertMin s.ready (s.rawAt s.ready) }
    have flag : Takes [.convert] { s with updated := false, main := .convertFlag s.ready (s.rawAt s.ready) } t :=
      .convertTurn ⟨hok, ha⟩ fun rest => congrArg Host.Outcome.next (convertFlag_valid valid)
    have convert := Takes.convertsSample (s := t) ⟨hok, ha⟩ hb hl rfl
    rw [convertOut_eq, ← hm] at convert
    exact (take.trans (flag.trans convert)).run

end Sys2Proof.Machine
end

section
/-! PROOFS. Calibration commands run one after the other: what a command leaves for the next one, and what a second recomputation
finds (R276). -/

namespace Sys2Proof.Machine

/-! ### From one command to the next -/

/-- The block a command has left receives the next one, whatever has been sampled meanwhile (R184, R211). -/
theorem afterCommand.received {s t : State} (ht : afterCommand s t) (h : commandReceived s = true) (r : Vector Word 4) :
    commandReceived { t with busState := .writeTransfer, raw := r } = true := by
  unfold afterCommand at ht
  rw [ht]
  simp_all [commandReceived]

theorem afterCommand.cfg {s t : State} (h : afterCommand s t) : t.cfg = s.cfg := by
  rw [h]

/-- A stored word no byte of which may have changed is as it was. -/
theorem storeSameOutside.nvWord {s t : State} {l : List (Fin 24)} (h : storeSameOutside s t l) (hc : t.cfg = s.cfg) {w : Fin 12}
    (hw : wordLo w ∉ l ∧ wordHi w ∉ l) : t.nvWord w = s.nvWord w := by
  have byte {k : Fin 24} (hk : k ∉ l) : t.nvByte k = s.nvByte k := by
    have unlisted : nvAddr s.cfg k ∉ l.map (nvAddr s.cfg) := by simpa [nvAddr, Fin.val_inj] using hk
    exact (congrArg (fun p => memRead t.cfg t.nv (nvAddr p k)) hc).trans (h _ unlisted)
  rw [State.nvWord, byte hw.1, byte hw.2, State.nvWord]

/-! ### A recomputation that finds every factor as it should be -/

/-- The new factor of corners whose factor the spec states (R274). -/
theorem newFactor_of_corners {s : State} {ch : Chan} {mn mx v : Word} (hmin : s.trim ch .min = mn) (hmax : s.trim ch .max = mx)
    (h : scaleFactorValue mn mx = some v) (k : Nat) : newFactor s ch k = v := by
  rw [newFactor, hmin, hmax, h, Option.getD_some]

/-- A channel whose stored factor is the one of its corners (R274). -/
def FactorStands (s : State) (ch : Chan) : Prop :=
  scaleFactorValue (s.trim ch .min) (s.trim ch .max) = some (s.trim ch .factor)

theorem FactorStands.newFactor {s : State} {ch : Chan} (h : FactorStands s ch) (k : Nat) :
    newFactor s ch k = s.trim ch .factor := newFactor_of_corners rfl rfl h k

/-- The six byte reads of such a channel, the store at rest, after which it is done (R276). -/
theorem Takes.findsFactor {s : State} {c : Byte} {j : Joystick} {ch : Chan} (h : Serving s) (hb : s.nvBusy = false)
    (he : ∀ s, exec (commandInstr c) s = .next (recompute j s)) (hm : s.main = .execute c) (hp : s.progress = .recomputeMin ch)
    (hl : s.lowByte = none) (hf : FactorStands s ch) :
    Takes (.dispatch :: .retire :: turns 5) s (afterExecute { s with
      draws := s.draws + factorDraws s ch, progress := recomputeNext j ch }) := by
  let t : State := { s with lowByte := some (s.nvByte (wordLo (trimWord ch .min))) }
  have low : Takes [.dispatch] s t := .readsMinLow h hb he hm hp hl
  have rest : Takes [.retire] t t := by
    have retire := Takes.retires (s := t) h.1
    rwa [show { t with nvBusy := false } = t by rw [← hb]] at retire
  have fields := Takes.readsFactor (s := t) h hb he hm hp rfl
  rw [if_pos (FactorStands.newFactor (s := t) hf t.draws), ← hl] at fields
  exact low.trans (rest.trans fields)

/-- A whole recomputation of two such channels writes nothing (R276). -/
theorem Takes.recomputesNothing {s : State} {c : Byte} {j : Joystick} (h : Serving s)
    (he : ∀ s, exec (commandInstr c) s = .next (recompute j s)) (hx : FactorStands s (joystickX j))
    (hy : FactorStands s (joystickY j)) :
    ∃ n, Takes commandMoves (s.executing c) (State.left { s with nvBusy := false, draws := n }) := by
  let u : State := { s.executing c with nvBusy := false }
  let x : State := { u with progress := .recomputeMin (joystickX j) }
  let y : State := { u with progress := .recomputeMin (joystickY j), draws := s.draws + factorDraws s (joystickX j) }
  let t : State := { s with nvBusy := false, draws := y.draws + factorDraws s (joystickY j) }
  have wait : Takes [.retire] (s.executing c) u := .retires h.1
  have begins : Takes [.dispatch] u x := .goesOn h rfl nofun fun _ => he _
  have channelX := Takes.findsFactor (s := x) h rfl he rfl rfl rfl hx
  rw [recomputeNext_x] at channelX
  have channelY := Takes.findsFactor (s := y) h rfl he rfl rfl rfl hy
  rw [recomputeNext_y] at channelY
  have leave := Takes.comesToLeft (s := t) h 2
  have retire := Takes.retiresLeft (s := t) h
  exact ⟨_, wait.trans <| begins.trans <| channelX.trans <| channelY.trans <| leave.trans retire⟩

/-- After a recomputation of corners in order the factor stands (R274, R276). -/
theorem factorStands_of_recomputed {s t : State} {ch : Chan} {k : Nat} (h : t.trim ch .factor = newFactor s ch k)
    (hmin : t.trim ch .min = s.trim ch .min) (hmax : t.trim ch .max = s.trim ch .max)
    (ordered : (s.trim ch .min).toNat ≤ (s.trim ch .max).toNat) : FactorStands t ch := by
  rw [FactorStands, hmin, hmax, h, newFactor_of_corners rfl rfl (scaleFactorValue_ordered ordered)]
  exact scaleFactorValue_ordered ordered

/-- The offsets `Recompute(j)` may write are not those of a corner (R63, R276). -/
theorem corner_not_factor (j : Joystick) {f : TrimField} (hf : f ≠ .factor) {ch : Chan}
    (hc : ch = joystickX j ∨ ch = joystickY j) :
    let l := [wordLo (trimWord (joystickX j) .factor), wordHi (trimWord (joystickX j) .factor),
      wordLo (trimWord (joystickY j) .factor), wordHi (trimWord (joystickY j) .factor)]
    wordLo (trimWord ch f) ∉ l ∧ wordHi (trimWord ch f) ∉ l := by
  cases f with
  | factor => exact absurd rfl hf
  | min => rcases hc with rfl | rfl <;> revert j <;> decide
  | max => rcases hc with rfl | rfl <;> revert j <;> decide

/-- A recomputation run to its end, and again: the second run leaves the store as it finds it (R276). -/
theorem recomputesTwice_of_exec {s : State} {c : Byte} {j : Joystick}
    (he : ∀ s, exec (commandInstr c) s = .next (recompute j s)) (h : commandReceived s = true) (hw : Memory.wf s.cfg s.nv = true)
    (hx : (s.trim (joystickX j) .min).toNat ≤ (s.trim (joystickX j) .max).toNat)
    (hy : (s.trim (joystickY j) .min).toNat ≤ (s.trim (joystickY j) .max).toNat) :
    ∃ t u : State, runCommand c s = .next t ∧ runCommand c { t with busState := .writeTransfer } = .next u ∧
      u.nvWrites = t.nvWrites ∧ u.nv = t.nv := by
  obtain ⟨t, run, after, factorX, factorY, same, _⟩ := recomputesFactors_of_exec he h hw
  have corner {f : TrimField} (hf : f ≠ .factor) {ch : Chan} (hc : ch = joystickX j ∨ ch = joystickY j) :
      t.trim ch f = s.trim ch f := same.nvWord after.cfg (corner_not_factor j hf hc)
  have standsX : FactorStands t (joystickX j) :=
    factorStands_of_recomputed factorX (corner (f := .min) nofun (.inl rfl)) (corner (f := .max) nofun (.inl rfl)) hx
  have standsY : FactorStands t (joystickY j) :=
    factorStands_of_recomputed factorY (corner (f := .min) nofun (.inr rfl)) (corner (f := .max) nofun (.inr rfl)) hy
  have again : commandReceived { t with busState := .writeTransfer } = true := after.received h t.raw
  obtain ⟨n, moves⟩ := Takes.recomputesNothing (s := { t with busState := .writeTransfer }) (commandReceived_serving again) he
    standsX standsY
  obtain ⟨run', _⟩ := runCommand_calibrates again moves rfl rfl
  exact ⟨t, _, run, run', rfl, rfl⟩

/-- Settles O35: the two recompute commands are `Recompute` with their joystick. -/
theorem recomputeTwiceWritesOnce : Obligations.RecomputeTwiceWritesOnce := by
  intro s c j hc h hw hx hy
  rcases hc with ⟨rfl, rfl⟩ | ⟨rfl, rfl⟩
  · exact recomputesTwice_of_exec (fun _ => rfl) h hw hx hy
  · exact recomputesTwice_of_exec (fun _ => rfl) h hw hx hy

end Sys2Proof.Machine
end

section
/-! PROOFS. The calibration of a joystick: both corners and the recomputation, one after the other (R275 to R277). -/

namespace Sys2Proof.Machine

/-! ### A corner command leaves a store the next command can write -/

/-- What `Takes.corners` leaves unsaid: after the two commits of `CornerSet` the store is canonical again, so that a further
command can write it (R275, R64). -/
theorem Takes.cornersKeepCanonical {s : State} {c : Byte} {j : Joystick} {f : TrimField} (h : Serving s)
    (he : ∀ s, exec (commandInstr c) s = .next (cornerSet j f s)) (hw : Memory.wf s.cfg s.nv = true) :
    ∃ nv, Memory.wf s.cfg nv = true ∧
      Takes commandMoves (s.executing c) (State.left { s with nv := nv, nvWrites := s.nvWrites + 2, nvBusy := false }) := by
  let u : State := { s.executing c with
    nvBusy := false, progress := .cornerFirst (s.rawAt (joystickX j)) (s.rawAt (joystickY j)) }
  have wait : Takes [.retire] (s.executing c) { s.executing c with nvBusy := false } := .retires h.1
  have samples : Takes [.dispatch] { s.executing c with nvBusy := false } u := .goesOn h rfl nofun fun _ => he _
  obtain ⟨nv, _, canonical, first⟩ := Takes.commitsWord (s := u) (p := .cornerSecond (s.rawAt (joystickY j)))
    h rfl hw fun _ => by rw [he, cornerSet_first]; exacts [rfl, rfl]
  let v : State := { u with nv := nv, nvWrites := s.nvWrites + 1, progress := .cornerSecond (s.rawAt (joystickY j)) }
  have wait' : Takes [.retire] { v with nvBusy := true } v := .retires h.1
  obtain ⟨nv', _, canonical', second⟩ := Takes.commitsWord (s := v) (p := .fresh)
    h rfl canonical fun _ => by rw [he, cornerSet_second]; exacts [rfl, rfl]
  let t : State := { s with nv := nv', nvWrites := s.nvWrites + 2, nvBusy := true }
  have leave := Takes.comesToLeft (s := t) h 2
  have retire := Takes.retiresLeft (s := t) h
  have poll := Takes.pollsLeft (s := { t with nvBusy := false }) h 10
  have retire' := Takes.retiresLeft (s := { t with nvBusy := false }) h
  exact ⟨nv', canonical', wait.trans <| samples.trans <| first.trans <| wait'.trans <| second.trans <| leave.trans <|
    retire.trans <| poll.trans retire'⟩

/-- A corner command run to its end leaves a canonical store. -/
theorem runCommand_corner_wf {s t : State} {c : Byte} {j : Joystick} {f : TrimField}
    (he : ∀ s, exec (commandInstr c) s = .next (cornerSet j f s)) (h : commandReceived s = true)
    (hw : Memory.wf s.cfg s.nv = true) (run : runCommand c s = .next t) : Memory.wf t.cfg t.nv = true := by
  obtain ⟨nv, canonical, moves⟩ := Takes.cornersKeepCanonical (commandReceived_serving h) he hw
  obtain ⟨run', _⟩ := runCommand_calibrates h moves rfl rfl
  rw [Host.Outcome.next.inj (run.symm.trans run')]
  exact canonical

/-- Settles O36: each command finds the corners the ones before it have stored. -/
theorem calibrationScenario : Obligations.CalibrationScenario := by
  intro s h hw raw0 raw1
  obtain ⟨t, runA, afterA, minX, minY, _⟩ := storesCorner_of_exec (c := 0x20#8) (j := 0) (f := .min) (fun _ => rfl) h hw
  have wfA := runCommand_corner_wf (j := 0) (f := .min) (fun _ => rfl) h hw runA
  let t' : State := { t with busState := .writeTransfer, raw := #v[4000#16, 4100#16, t.rawAt 2, t.rawAt 3] }
  have receivedB : commandReceived t' = true := afterA.received h _
  obtain ⟨u, runB, afterB, maxX, maxY, sameB, _⟩ :=
    storesCorner_of_exec (s := t') (c := 0x21#8) (j := 0) (f := .max) (fun _ => rfl) receivedB wfA
  have wfB := runCommand_corner_wf (s := t') (j := 0) (f := .max) (fun _ => rfl) receivedB wfA runB
  let u' : State := { u with busState := .writeTransfer }
  have receivedF : commandReceived u' = true := afterB.received receivedB u.raw
  obtain ⟨v, runF, afterF, factorX, factorY, sameF, _⟩ :=
    recomputesFactors_of_exec (s := u') (c := 0x22#8) (j := 0) (fun _ => rfl) receivedF wfB
  have min0 : u.trim 0 .min = 100#16 := (sameB.nvWord afterB.cfg (by decide)).trans (minX.trans raw0)
  have min1 : u.trim 1 .min = 120#16 := (sameB.nvWord afterB.cfg (by decide)).trans (minY.trans raw1)
  have max0 : u.trim 0 .max = 4000#16 := maxX
  have max1 : u.trim 1 .max = 4100#16 := maxY
  have factor0 (k : Nat) : newFactor u' 0 k = 97#16 := newFactor_of_corners min0 max0 (by decide) k
  have factor1 (k : Nat) : newFactor u' 1 k = 99#16 := newFactor_of_corners min1 max1 (by decide) k
  have kept {w : Fin 12} hw' : v.nvWord w = u.nvWord w := sameF.nvWord afterF.cfg hw'
  exact ⟨t, u, v, runA, runB, runF, (kept (by decide)).trans min0, (kept (by decide)).trans max0, factorX.trans (factor0 _),
    (kept (by decide)).trans min1, (kept (by decide)).trans max1, factorY.trans (factor1 _)⟩

end Sys2Proof.Machine
end

section
/-! PROOFS. What the agents beside the main context leave to it (R315, R320), and the two interrupt levels, whose order does not
show (R313). -/

namespace Sys2Proof.Machine

/-! ### The other agents and the main context -/

/-- What the agents own and the schedule hold none of the main context's fields (R315, R320). -/
theorem AgentFrame.mainSame_sched {s u : State} {ms ns : List Move} (f : AgentFrame { s with sched := ms } u) :
    MainFieldsSame s { u with sched := ns } :=
  ⟨f.cfg, f.busState, f.matched, f.dir, f.mode, f.cursor, f.snap, f.out, f.invalid, f.ie, f.main, f.progress, f.lowByte, f.asked⟩

/-- A step of another agent that does not wait writes what the agents own, and the schedule (R10, R320): it is the compare event, the
peer's lowering of the clock, or the move itself. -/
theorem otherStep_agents {run : Meaning} {m : Move} {s t : State}
    (h : compareFirst m s = true ∨ lowersClock m s = true ∨ mustWait m s = false) (e : otherStep run m s = .next t) :
    ∃ u ns, AgentFrame s u ∧ t = { u with sched := ns } := by
  unfold otherStep at e
  split at e
  · cases e
    exact ⟨_, _, compareEvent_frame s, rfl⟩
  · next notDue =>
    split at e
    · cases e
      exact ⟨_, _, (setPeerScl_frame true s).agents, rfl⟩
    · next notLowered =>
      have free : mustWait m s = false := (h.resolve_left notDue).resolve_left notLowered
      rw [if_neg (Bool.eq_false_iff.mp free)] at e
      cases e
      obtain ⟨ns, rest⟩ := putRestBack_sched (moveRest m s) (agentMove m s)
      exact ⟨_, ns, agentMove_frame m s, rest⟩

/-- Settles O50: the step has the frame of the agents, but for the schedule. -/
theorem otherAgentsLeaveMainContext : Obligations.OtherAgentsLeaveMainContext := by
  intro s t m ms hs hm h e
  obtain ⟨hok, ha⟩ := served_of_step_next e
  rw [step_of_sched hok ha hs, moveStep_other hm] at e
  obtain ⟨u, ns, f, rfl⟩ := otherStep_agents (s := { s with sched := ms }) h e
  exact ⟨f.mainSame_sched, f.nv, f.nvWrites, f.draws⟩

/-! ### The two interrupt levels -/

/-- `EV_D` moves neither the counter, nor the phase, nor a compare value: the same compare events are due after it (R124, R126, R252). -/
theorem evD_evADue (s : State) : evADue (evD s) = evADue s := by
  rw [evD_regs]
  rfl

theorem evD_evBDue (s : State) : evBDue (evD s) = evBDue s := by
  rw [evD_regs]
  rfl

/-- `EV_A` and `EV_B` touch neither the buttons' inputs nor what DEB holds of them (R124, R126). -/
theorem evA_evD {s : State} (hi : s.ie = true) : evA (evD s) = evD (evA s) := by
  rw [evD, evD, takeInterrupt_enabled hi, takeInterrupt_enabled (s := evA s) hi]
  rfl

theorem evB_evD {s : State} (hi : s.ie = true) : evB (evD s) = evD (evB s) := by
  rw [evD, evD, takeInterrupt_enabled hi, takeInterrupt_enabled (s := evB s) hi]
  rfl

/-- Settles O51: a debounce tick leaves the due event due, and whichever it is commutes with the tick. -/
theorem interruptLevelsCommute : Obligations.InterruptLevelsCommute := by
  intro s
  simp only [compareEvent, takeInterrupt, (evD_frame s).ie, evD_evADue, evD_evBDue]
  split
  · next enabled =>
    split
    · exact evA_evD enabled
    · split
      · exact evB_evD enabled
      · rfl
  · rfl

end Sys2Proof.Machine
end

section
/-! PROOFS. The deadlines of CAP along a fair run: every step keeps them, counts towards them or takes the event that is due, so
every channel is sampled again and again (R122, R126, R128, R129, R343, R344). -/

namespace Sys2Proof.Machine

/-! ### What CAP's deadlines depend on -/

/-- The registers of CAP that say which event comes next and when: the counter, the compare values, the phase and the channel. -/
def capClock (s : State) : Word × Word × Word × Phase × Chan := (s.cnt, s.oca, s.ocb, s.phase, s.next)

theorem SamplingFrame.capClock {s t : State} (h : SamplingFrame s t) : capClock t = capClock s := by rw [← h]; rfl

theorem LineFrame.capClock {s t : State} (h : LineFrame s t) : capClock t = capClock s := h.sampling.capClock

/-- `TICK` apart, no move of another agent touches the deadlines (R123, R320). -/
theorem agentMove_capClock {m : Move} (hm : m ≠ .tick) (s : State) : capClock (agentMove m s) = capClock s := by
  cases m with
  | tick => exact absurd rfl hm
  | cmp l =>
    show capClock (setCmp l s) = capClock s
    unfold setCmp trip
    dsimp only
    split
    · split <;> rfl
    · rfl
  | evD =>
    show capClock (evD s) = capClock s
    rw [evD_regs]
    rfl
  | btn p => rfl
  | peerSda p => exact (setPeerSda_frame p s).capClock
  | peerScl p => exact (setPeerScl_frame p s).capClock
  | start => exact (peerStart_frame s).capClock
  | stop => exact (peerStop_frame s).capClock
  | wbyte b => exact (peerWrite_frame _ s).capClock
  | rbyte a => exact (peerRead_frame _ _ _ s).capClock
  | wrest bits => exact (peerWrite_frame _ s).capClock
  | rrest n acc a => exact (peerRead_frame _ _ _ s).capClock
  | retire => rfl
  | dispatch => rfl
  | convert => rfl

theorem waitStep_capClock {s t : State} (e : waitStep exec s = .next t) : capClock t = capClock s := by
  unfold waitStep at e
  split at e
  · cases e
    rfl
  · exact (mainStep_sampling e).capClock

/-! ### What one step makes of the deadlines -/

/-- A step of another agent takes the compare event that is due, the schedule apart, or it leaves the deadlines, `TICK` apart. -/
theorem otherStep_capClock {m : Move} {s t : State} (hm : m ≠ .tick) (e : otherStep exec m s = .next t) :
    (compareDue s = true ∧ ∃ ms, t = { compareEvent s with sched := ms }) ∨ capClock t = capClock s := by
  unfold otherStep at e
  split at e
  · next first =>
    cases e
    obtain ⟨_, due⟩ : (afterCompare m = true ∧ s.ie = true) ∧ compareDue s = true := by simpa [compareFirst] using first
    exact .inl ⟨due, _, rfl⟩
  · refine .inr ?_
    split at e
    · cases e
      exact (setPeerScl_frame true s).capClock
    · split at e
      · exact waitStep_capClock (s := putBack m s) e
      · cases e
        obtain ⟨ms, rest⟩ := putRestBack_sched (moveRest m s) (agentMove m s)
        rw [rest]
        exact agentMove_capClock hm s

/-- One step of a run takes the compare event that is due, or it ticks with none due, or it leaves the deadlines (R122, R123). -/
theorem step_capClock {m : Move} {s t : State} (hok : s.cfg.ok = true) (ha : s.asked = none) (hi : s.ie = true)
    (e : step { s with sched := [m] } = .next t) :
    (compareDue s = true ∧ ∃ ms, t = { compareEvent s with sched := ms }) ∨
    (m = .tick ∧ compareDue s = false ∧ capClock t = capClock { s with cnt := s.cnt + 1 }) ∨
    (m ≠ .tick ∧ capClock t = capClock s) := by
  by_cases hm : m = .tick
  · subst hm
    cases hd : compareDue s with
    | true =>
      rw [step_due (s := { s with sched := [.tick] }) hok ha hi hd rfl rfl, compareEvent_sched] at e
      cases e
      exact .inl ⟨rfl, _, rfl⟩
    | false =>
      rw [tickAdvancesCounter { s with sched := [.tick] } [] hok ha hi hd rfl] at e
      cases e
      exact .inr (.inl ⟨rfl, rfl, rfl⟩)
  · rw [step_scheduled hok ha] at e
    cases hmain : mainsMove m with
    | false =>
      rw [moveStep_other hmain] at e
      rcases otherStep_capClock hm e with ⟨due, ms, rfl⟩ | same
      · exact .inl ⟨due, ms, by rw [compareEvent_sched]⟩
      · exact .inr (.inr ⟨hm, same⟩)
    | true =>
      obtain ⟨choice, e⟩ : ∃ choice, mainStep exec choice { s with sched := [] } = .next t := by
        cases m with
        | dispatch => exact ⟨.dispatch, e⟩
        | convert => exact ⟨.convert, e⟩
        | _ => cases hmain
      exact .inr (.inr ⟨hm, (mainStep_sampling e).capClock⟩)

/-! ### How far the next sample of a channel is -/

/-- The ticks up to the deadline of the phase CAP is in (R128, R129). -/
def ticksToEvent (s : State) : Nat :=
  match s.phase with
  | .charging => (s.oca - s.cnt).toNat
  | .discharging => (s.ocb - s.cnt).toNat

/-- The compare events before the `EV_A` of channel `ch`: two for each channel before it, and an `EV_B` if it is in phase B. -/
def eventsToSample (ch : Chan) (s : State) : Nat :=
  match s.phase with
  | .charging => 2 * (ch - s.next).val
  | .discharging => 2 * (ch - s.next).val + 1

/-- How far the `EV_A` of channel `ch` is, an event weighing more than the ticks of any phase. -/
def distanceToSample (ch : Chan) (s : State) : Nat := eventsToSample ch s * 2 ^ 16 + ticksToEvent s

theorem distanceToSample_congr {s t : State} (h : capClock t = capClock s) (ch : Chan) :
    distanceToSample ch t = distanceToSample ch s := by
  obtain ⟨hcnt, hoca, hocb, hphase, hnext⟩ : t.cnt = s.cnt ∧ t.oca = s.oca ∧ t.ocb = s.ocb ∧ t.phase = s.phase ∧ t.next = s.next := by
    simpa [capClock] using h
  simp only [distanceToSample, eventsToSample, ticksToEvent, hcnt, hoca, hocb, hphase, hnext]

theorem ticksToEvent_lt (s : State) : ticksToEvent s < 2 ^ 16 := by
  unfold ticksToEvent
  split <;> exact BitVec.isLt _

/-- One event less is nearer, whatever the ticks. -/
theorem distanceToSample_lt_of_events {ch : Chan} {s t : State} (h : eventsToSample ch t < eventsToSample ch s) :
    distanceToSample ch t < distanceToSample ch s := by
  have := ticksToEvent_lt t
  unfold distanceToSample
  omega

theorem sub_succ_lt {c d : Word} (h : c ≠ d) : (d - (c + 1)).toNat < (d - c).toNat := by
  bv_omega

/-- A tick with no event due is a tick nearer (R123). -/
theorem distanceToSample_tick {s : State} (hd : compareDue s = false) (ch : Chan) :
    distanceToSample ch { s with cnt := s.cnt + 1 } < distanceToSample ch s := by
  have nearer : ticksToEvent { s with cnt := s.cnt + 1 } < ticksToEvent s := by
    unfold ticksToEvent
    cases hp : s.phase with
    | charging =>
      rw [compareDue_charging hp, Bool.eq_false_iff, Ne, evADue_iff] at hd
      exact sub_succ_lt fun e => hd ⟨hp, e⟩
    | discharging =>
      rw [compareDue_discharging hp, Bool.eq_false_iff, Ne, evBDue_iff] at hd
      exact sub_succ_lt fun e => hd ⟨hp, e⟩
  exact Nat.add_lt_add_left nearer _

/-- `EV_B` is one event less to come (R124). -/
theorem eventsToSample_evB {s : State} (hd : evBDue s = true) (ch : Chan) : eventsToSample ch (evB s) < eventsToSample ch s := by
  obtain ⟨hp, _⟩ := evBDue_iff.mp hd
  simp [eventsToSample, hp]

theorem chan_sub_succ {ch n : Chan} (h : n ≠ ch) : (ch - (n + 1)).val + 1 = (ch - n).val := by
  revert ch n
  decide

/-- So is the `EV_A` of another channel (R126). -/
theorem eventsToSample_evA {s : State} (hd : evADue s = true) {ch : Chan} (hn : s.next ≠ ch) :
    eventsToSample ch (evA s) < eventsToSample ch s := by
  obtain ⟨hp, _⟩ := evADue_iff.mp hd
  have := chan_sub_succ hn
  simp only [eventsToSample, evA_phase, evA_next, hp]
  omega

/-! ### The sample of a channel along a run -/

/-- From `s` to `t` the `EV_A` of channel `ch` is due and leaves its sample (R126). -/
def Samples (ch : Chan) (s t : State) : Prop :=
  evADue s = true ∧ s.next = ch ∧ t.rawAt ch = (if s.capf then s.icr - s.t0 else 0xFFFF#16) ∧ t.ready = ch ∧ t.updated = true ∧
    t.phase = .discharging ∧ t.next = ch + 1

theorem samples_evA {s : State} (hd : evADue s = true) (ms : List Move) : Samples s.next s { evA s with sched := ms } :=
  ⟨hd, rfl, evA_rawAt_same s, rfl, rfl, rfl, rfl⟩

/-- A compare event samples the channel or brings its sample nearer. -/
theorem compareEvent_nearer {s : State} (hi : s.ie = true) (hd : compareDue s = true) (ch : Chan) (ms : List Move) :
    Samples ch s { compareEvent s with sched := ms } ∨
      distanceToSample ch { compareEvent s with sched := ms } < distanceToSample ch s := by
  rcases compareDue_iff.mp hd with dueA | dueB
  · rw [compareEvent_evA hi dueA]
    by_cases hn : s.next = ch
    · exact .inl (hn ▸ samples_evA dueA ms)
    · exact .inr (distanceToSample_lt_of_events (eventsToSample_evA dueA hn))
  · rw [compareEvent_evB hi dueB]
    exact .inr (distanceToSample_lt_of_events (eventsToSample_evB dueB ch))

/-- A step samples the channel, or it never takes its sample further away, and a tick with no event due brings it nearer. -/
theorem step_nearer {m : Move} {s t : State} (hok : s.cfg.ok = true) (ha : s.asked = none) (hi : s.ie = true)
    (e : step { s with sched := [m] } = .next t) (ch : Chan) :
    Samples ch s t ∨ distanceToSample ch t ≤ distanceToSample ch s ∧
      (m = .tick → distanceToSample ch t < distanceToSample ch s) := by
  rcases step_capClock hok ha hi e with ⟨due, ms, rfl⟩ | ⟨_, notDue, ticked⟩ | ⟨other, same⟩
  · exact (compareEvent_nearer hi due ch ms).imp_right fun nearer => ⟨nearer.le, fun _ => nearer⟩
  · have nearer := distanceToSample_tick notDue ch
    rw [← distanceToSample_congr ticked] at nearer
    exact .inr ⟨nearer.le, fun _ => nearer⟩
  · exact .inr ⟨(distanceToSample_congr same ch).le, fun tick => absurd tick other⟩

theorem runOn_nearer {ms : Nat → Move} {s : State} (h : Inv s) (hok : s.cfg.ok = true) (ha : s.asked = none) (ch : Chan) (k : Nat) :
    Samples ch (runOn ms s k) (runOn ms s (k + 1)) ∨
      distanceToSample ch (runOn ms s (k + 1)) ≤ distanceToSample ch (runOn ms s k) ∧
        (ms k = .tick → distanceToSample ch (runOn ms s (k + 1)) < distanceToSample ch (runOn ms s k)) := by
  have here := runOn_onward (ms := ms) h hok ha k
  obtain ⟨_, runs⟩ := noFatalPath s h hok ha
  obtain ⟨_, e⟩ := runs ms k
  exact step_nearer (here.cfg ▸ hok) (here.asked.trans ha) here.inv.enabled e ch

/-- A distance that never grows from `n` on and shrinks again and again does not exist. -/
theorem not_shrinks_forever {f : Nat → Nat} {n : Nat} (le : ∀ k, n ≤ k → f (k + 1) ≤ f k)
    (lt : ∀ i, ∃ k, i ≤ k ∧ f (k + 1) < f k) : False := by
  let least := Function.argmin fun i => f (n + i)
  obtain ⟨k, hk, shrinks⟩ := lt (n + least)
  have kept : f k ≤ f (n + least) :=
    Nat.le_induction le_rfl (fun j hj ih => (le j (by omega)).trans ih) k hk
  refine Function.not_lt_argmin (fun i => f (n + i)) (k + 1 - n) ?_
  rw [Nat.add_sub_cancel' (by omega)]
  exact shrinks.trans_le kept

/-- Settles O59: time goes on in a fair run, so without a sample of the channel its distance would shrink for ever. -/
theorem fairRunsSampleEveryChannel : Obligations.FairRunsSampleEveryChannel := by
  intro ms s h hok ha fair ch n
  by_contra! never
  have nearer (k : Nat) (hk : n ≤ k) := (runOn_nearer (ms := ms) h hok ha ch k).resolve_left fun sampled => never k hk sampled
  refine not_shrinks_forever (f := fun k => distanceToSample ch (runOn ms s k)) (fun k hk => (nearer k hk).1) fun i => ?_
  obtain ⟨k, hk, tick, _⟩ := fair.ticks (max n i)
  obtain ⟨_, shrinks⟩ := nearer k (by omega)
  exact ⟨k, by omega, shrinks tick⟩

end Sys2Proof.Machine
end

section
/-! PROOFS. The reset table (R340), and the factory trims a fresh store reads as (R63, R278). -/

namespace Sys2Proof.Machine

/-- The configuration's factory value of a trim field (R63). -/
def factoryTrim (p : Params) (ch : Chan) : TrimField → Word
  | .min => p.trimDefault[ch].minR
  | .max => p.trimDefault[ch].maxR
  | .factor => p.trimDefault[ch].factor

/-- Byte `6 * ch + i` of the factory table is byte `i` of the channel's record (R63). -/
theorem factoryByte_record (p : Params) {k : Fin 24} {ch : Chan} {i : Fin 6} (h : k.val = 6 * ch.val + i.val) :
    factoryByte p k = trimRecordByte p.trimDefault[ch] i := by
  have record : k.val / 6 = ch.val := by omega
  have offset : k.val % 6 = i.val := by omega
  simp [factoryByte, record, offset]

/-- With nothing written the store reads as the factory table (R278). -/
theorem nvByte_unwritten {s : State} (h : s.nv = []) (k : Fin 24) : s.nvByte k = factoryByte s.cfg k := by
  simp [State.nvByte, h, memRead, memFind, unlistedByte, nvAddr]

/-- So each trim field is the configuration's factory value (R63, R278). -/
theorem trim_unwritten {s : State} (h : s.nv = []) (ch : Chan) (f : TrimField) :
    s.trim ch f = factoryTrim s.cfg ch f := by
  have low : (wordLo (trimWord ch f)).val = 6 * ch.val + 2 * f.word.val := by
    simp only [wordLo, trimWord]
    omega
  have high : (wordHi (trimWord ch f)).val = 6 * ch.val + (2 * f.word.val + 1) := by
    simp only [wordHi, trimWord]
    omega
  rw [State.trim, State.nvWord, nvByte_unwritten h, nvByte_unwritten h,
    factoryByte_record s.cfg (i := ⟨2 * f.word.val, by omega⟩) low,
    factoryByte_record s.cfg (i := ⟨2 * f.word.val + 1, by omega⟩) high]
  cases f <;> exact ofBytes_lo_hi _

/-- No button has counted a tick yet (R340). -/
theorem resetWith_dbc (p : Params) (d : ResetDraws) (nv : List Host.Cell) (i : Fin 4) : (State.resetWith p d nv).dbc[i] = 0 := by
  fin_cases i <;> rfl

/-- Settles O54: the registers as `State.resetWith` gives them, each button's count, and the factory trims. -/
theorem resetTable : Obligations.ResetTable := by
  intro p d nv
  refine ⟨rfl, rfl, rfl, rfl, rfl, rfl, rfl, rfl, rfl, rfl, rfl, resetWith_dbc p d nv, rfl, rfl, rfl, rfl, rfl, rfl, rfl, rfl, rfl,
    rfl, rfl, rfl, rfl, fun _ => rfl, rfl, rfl, rfl, rfl, rfl, rfl, rfl, rfl, fun ch => ?_⟩
  exact ⟨trim_unwritten rfl ch .min, trim_unwritten rfl ch .max, trim_unwritten rfl ch .factor⟩

end Sys2Proof.Machine
end
